-- ==== Sys2Proof/Word.lean ====
section
/-! DEFINITION. The word types of the MN2410: what the manual treats as bits. -/

namespace Sys2Proof

/-- One byte on the Control Port or on the body bus (R181, R199). -/
abbrev Byte := BitVec 8

/-- A set of power domains: bit i stands for domain Di (R75, R199). -/
abbrev DomainSet := BitVec 12

/-- A set of event flags: bit n stands for flag n of R202. -/
abbrev FlagSet := BitVec 16

end Sys2Proof
end

