-- ==== Sys2Proof/Config.lean ====
section
/-! DEFINITION. Constants of the part, and the free values: readings of the outside world and an order of taking, which
nothing in the model fixes. -/

namespace Sys2Proof.Config

/-- The largest value of the 32-bit counters, at which they saturate (R65, R67, R109). -/
def counterMax : Nat := 4294967295

/-- Timers count in units of 1/4,096,000 s, in which a millisecond, a second and a crystal period are all whole
numbers (log 3, DESIGN CHOICE). -/
def unitsPerMs : Nat := 4096

/-- One second in timer units. -/
def unitsPerSecond : Nat := 4096000

/-- One period of the 32.768 kHz crystal in timer units (R99). -/
def unitsPerPeriod : Nat := 125

/-- Crystal periods in a second (R99). -/
def periodsPerSecond : Nat := 32768

/-- FREE VALUE (log 10): the battery voltage in mV at the n-th conversion that the part makes of its own accord. -/
opaque vsenseReading : Nat → Nat

/-- FREE VALUE (log 10): what the shunt channel reads, in mA, at the n-th conversion that the part makes of its own
accord. -/
opaque shuntReading : Nat → Int

/-- FREE VALUE (log 26): whether the abort of a CLEAR is taken before that of a mode change, the n-th time a
CALIBRATION_ABORT finds both on their way to the SPM. R192 lets either be taken first. -/
opaque clearAbortFirst : Nat → Bool

end Sys2Proof.Config
end

