-- ==== Sys2Proof/Syntax.lean ====
section
/-! DEFINITION. The commands of the block: one constructor of `Instr` per row of spec/opcode_table.json, with the
data each carries, and the enumerations the data is made of. Control Port commands carry their arguments in the
widths of R200; arrivals between sub-blocks carry what the sending rule hands over. -/

namespace Sys2Proof

/-- The four tiers (02, section 2.1). -/
inductive Tier where
  | exhausted | red | amber | green
deriving DecidableEq, Repr

/-- The number of a tier where tiers are compared (00 "Tiers"). -/
def Tier.rank : Tier → Nat
  | .exhausted => 0
  | .red => 1
  | .amber => 2
  | .green => 3

/-- The vehicle mode (R163). -/
inductive Mode where
  | run | parkPending | park
deriving DecidableEq, Repr

/-- The state of a hold in a non-free slot (R1). -/
inductive HoldState where
  | scheduled | active | suspended
deriving DecidableEq, Repr

/-- Why a hold is SUSPENDED (R2). -/
inductive SuspendReason where
  | tierDrop | notAdmitted
deriving DecidableEq, Repr

/-- The status codes of R189, in the order of R199. -/
inductive Status where
  | ok | idle | unknown | framing | check | arg | stale | notOwner | full | ownerLimit | denied | mode
deriving DecidableEq, Repr

/-- The last outcome of a wake source (R135, R199). -/
inductive WakeOutcome where
  | none | accepted | coalesced | window | disarmed | limit | full
deriving DecidableEq, Repr

/-- A handle: slot number and generation (R6). The encoding carries slot numbers up to 63. -/
structure Handle where
  slot : Fin 64
  gen : BitVec 4
deriving DecidableEq, Repr

/-- The hold record of R2. An absent field is `none`. -/
structure Hold where
  state : HoldState
  owner : Fin 64
  mask : DomainSet
  cls : Fin 8
  code : Fin 166
  remaining : Option Nat
  countdown : Option Nat
  interval : Option Nat
  sinceStart : Option Nat
  cap : Option Nat
  charge : Nat
  reason : Option SuspendReason
  template : Option (Fin 16)
deriving DecidableEq, Repr

/-- A wake template (R141). -/
structure Template where
  mask : DomainSet
  cls : Fin 8
  code : Fin 166
  cap : Option Nat
  coalesce : Bool
deriving DecidableEq, Repr

/-- A frame whose reception completes on the body bus without an error (R169): its format, identifier, kind, length
code and the data bytes it carries. -/
structure CanFrame where
  extended : Bool
  ident : BitVec 11
  remote : Bool
  dlc : BitVec 4
  data : List Byte
deriving DecidableEq, Repr

/-- The four operations of the hold service (R175). -/
inductive NetOp where
  | request | renew | release | query
deriving DecidableEq, Repr

/-- What the HTM returns to the BNL for a network operation (R175, R176). -/
inductive NetReturn where
  | requestOk (node : Byte) (tag : BitVec 4) (handle : Handle) (state : HoldState)
  | requestRefused (node : Byte) (tag : BitVec 4) (status : Status)
  | renewOk (node : Byte) (handle : Handle) (hold : Hold)
  | releaseOk (node : Byte) (handle : Handle)
  | queryOk (node : Byte) (handle : Handle) (hold : Hold)
  | refused (op : NetOp) (node : Byte) (handle : Handle) (status : Status)
deriving DecidableEq, Repr

/-- How the one transmission attempt of an answer ends (R177). -/
inductive AttemptEnd where
  | sent | arbitrationLost | transmitError
deriving DecidableEq, Repr

/-- The arguments of one clock window in SOURCE_CONFIG (R120, R200). -/
structure ClockArgs where
  enable : Byte
  area : Byte
  start : BitVec 16
  stop : BitVec 16
  days : Byte
deriving DecidableEq, Repr

/-- The arguments of SOURCE_CONFIG in the order of R200. -/
structure SourceArgs where
  source : Byte
  polarity : Byte
  debounce : Byte
  armOnce : Byte
  armAlways : Byte
  template : Byte
  logic : Byte
  winA : ClockArgs
  winB : ClockArgs
  tierEnable : Byte
  tierArea : Byte
  minTier : Byte
deriving DecidableEq, Repr

/-- The commands of the block, one per row of spec/opcode_table.json, in the table's order. -/
inductive Instr where
  /-- POWER_ON_RESET: the supply rises above the reset threshold. -/
  | powerOnReset
  /-- FRAME_BEGIN: a falling edge of CSN. -/
  | frameBegin
  /-- FRAME_REFUSED: CSN rises at the end of a frame of these bytes (R184; log 6). -/
  | frameRefused (bytes : List Byte)
  | nop
  | request (owner : Byte) (mask : BitVec 16) (cls code : Byte) (delay : BitVec 32) (interval : BitVec 16) (cap : BitVec 32)
  | renew (handle : BitVec 16) (code : Byte)
  | release (handle : BitVec 16)
  | query (handle : BitVec 16)
  | find (selector value : Byte)
  | purge (owner : Byte)
  | domainConfig (domain enable runEnable : Byte) (draw : BitVec 16) (settle runDown : Byte)
  | domainStatus (domain : Byte)
  | clearFault (domain : Byte)
  | master (setting : Byte)
  | budgetConfig (allowance q : BitVec 16) (k : Byte) (tg ta tr : BitVec 16)
  | budgetStatus
  | credit (amount : BitVec 32)
  | classConfig (cls floor reserve : Byte)
  | limits (network control source : Byte)
  | sourceConfig (args : SourceArgs)
  | sourceStatus (source : Byte)
  | filterConfig (filter enable : Byte) (ident mask : BitVec 16) (dataFlag index value valueMask : Byte)
  | templateConfig (template : Byte) (mask : BitVec 16) (cls code : Byte) (cap : BitVec 32) (coalesce : Byte)
  | setClock (day : Byte) (minute : BitVec 16) (second : Byte)
  | clockStatus
  | voltageConfig (vlow vcrit : Byte)
  | currentConfig (enable : Byte)
  | calibrate
  | supplyStatus
  | modeConfig (delay : Byte)
  | parkNow
  | modeStatus
  | events (keep : FlagSet)
  /-- EVENT_ENABLE: sixteen level bytes, that of flag 0 first (most significant), then the WAKE_HOST code. -/
  | eventEnable (levels : BitVec 128) (code : Byte)
  | serviceConfig (enable : Byte) (service answer : BitVec 16)
  | clear
  | clearFlags
  | clearService
  /-- BLOCK_RESULT: a block's result for the command of this serial number (log 7). -/
  | blockResult (serial : Nat) (status : Status) (payload : List Byte)
  | portReset
  | portLive
  | canFrameReceived (frame : CanFrame)
  | canFrameError
  | networkRequest (node : Byte) (mask : DomainSet) (cls code : Byte) (tag : BitVec 4)
  | networkRenew (node : Byte) (handle : Handle) (code : Byte)
  | networkRelease (node : Byte) (handle : Handle)
  | networkQuery (node : Byte) (handle : Handle)
  | htmReturn (result : NetReturn)
  | answerAttemptStart
  | answerAttemptEnd (how : AttemptEnd)
  | pinLevelChange (pin : Fin 8) (high : Bool)
  | debounceExpiry (pin : Fin 8)
  | wakeEvent (source : Fin 16)
  | handOver (source : Fin 16) (template : Fin 16)
  /-- APPLICATION: for owner 48 + source, the template's index and its fields as the TPE read them (R144). -/
  | application (source : Fin 16) (template : Fin 16) (fields : Template)
  | tpeReturn (source : Fin 16) (outcome : WakeOutcome)
  | wsuReturn (source : Fin 16) (outcome : WakeOutcome)
  /-- ONE_SECOND_EXPIRY, with the battery voltage in mV and the shunt reading in mA that the SPM's conversion of this
  expiry will find (log 10). -/
  | oneSecondExpiry (vbat : Nat) (shunt : Int)
  | holdSecond
  | holdExpiry (slot : Fin 48)
  | repeatExpiry (slot : Fin 48)
  | appointmentStart (slot : Fin 48)
  | accountingSecond
  /-- ATTRIBUTION: the shares of the second, each named by handle (R66). -/
  | attribution (shares : List (Handle × Nat))
  | voltageConversion (vbat : Nat) (shunt : Int)
  | calibrationCompletion (shunt : Int)
  | calibrationAbort
  /-- BUDGET_TIER_REPORT: the tier, and whether it is the refill report that carries the mode PARK (R34, R70). -/
  | budgetTierReport (tier : Tier) (parkEntry : Bool)
  | voltageCeilingReport (ceiling : Tier)
  | modeReport (mode : Mode)
  /-- HOLD_DEMAND_REPORT: the set of domains with hold-demand and the masks of the holds that entered ACTIVE (R10). -/
  | holdDemandReport (demand : DomainSet) (entered : List DomainSet)
  | runDemandReport (asserted : Bool)
  /-- FAULT_REPORT: a domain's trip input becomes active or inactive (R86). -/
  | faultReport (domain : Fin 12) (active : Bool)
  | settleExpiry (domain : Fin 12)
  | stabilityExpiry (domain : Fin 12)
  | runDownExpiry (domain : Fin 12)
  | backoffExpiry (domain : Fin 12)
  | ignChange (high : Bool)
  | ignDebounceExpiry
  | parkDelayExpiry
  | parkEntryRefill
  | modeRecord (mode : Mode)
  /-- FLAG_SETTING: the flags that one handling of a block sets (R193; log 14). -/
  | flagSetting (flags : FlagSet)
  | owner47Request (code : Fin 166)
  | supplyBelowResetThreshold
deriving DecidableEq, Repr

end Sys2Proof
end

