-- ==== Sys2Proof/WellFormed.lean ====
section
/-! DEFINITION. Which commands are well formed: the ranges the rules give the data of a command beyond what its type
already says. A command that fails the check names something the part's ways in cannot carry. -/

namespace Sys2Proof

/-- Data bytes of a classical CAN frame with this length code (R169): codes 9..15 give 8. -/
def CanFrame.lengthOf (dlc : BitVec 4) : Nat := min dlc.toNat 8

/-- A remote frame carries no data bytes; a data frame carries what its length code gives (R169). -/
def CanFrame.wf (f : CanFrame) : Bool :=
  f.data.length == (if f.remote then 0 else CanFrame.lengthOf f.dlc)

/-- A template names a non-empty mask, and a charge cap where it has one (R141). -/
def Template.wf (t : Template) : Bool :=
  t.mask != 0 && (match t.cap with
    | none => true
    | some c => decide (1 ≤ c ∧ c ≤ Config.counterMax))

/-- The outcomes that the HTM returns for an application (R134, R144). -/
def WakeOutcome.returned : WakeOutcome → Bool
  | .accepted | .coalesced | .limit | .full => true
  | .none | .window | .disarmed => false

/-- The node of a network operation that the service engine hands to the HTM is 0..31 (R175). -/
def nodeOk (node : Byte) : Bool := decide (node.toNat ≤ 31)

/-- Shares come in ascending slot order, each for a slot of the table, and none exceeds twelve domains in WAKING at
2,000 mA (R66). -/
def sharesOk : List (Handle × Nat) → Bool
  | [] => true
  | [(h, x)] => decide (h.slot.val ≤ 47 ∧ x ≤ 48000)
  | (h, x) :: (h', x') :: rest =>
    decide (h.slot.val < h'.slot.val ∧ x ≤ 48000) && sharesOk ((h', x') :: rest)

/-- The check of every command. -/
def Instr.wf : Instr → Bool
  | .frameRefused bytes => decide (bytes.length ≤ 128)
  | .blockResult _ _ payload => decide (payload.length ≤ 124)
  | .canFrameReceived f => f.wf
  | .networkRequest node _ _ _ _ => nodeOk node
  | .networkRenew node _ _ => nodeOk node
  | .networkRelease node _ => nodeOk node
  | .networkQuery node _ => nodeOk node
  | .application _ _ t => t.wf
  | .tpeReturn _ o => o.returned
  | .wsuReturn _ o => o.returned
  | .attribution shares => !shares.isEmpty && sharesOk shares
  | .voltageCeilingReport c => c != .amber
  | .modeReport m => m != .park
  | .modeRecord m => m != .park
  | .holdDemandReport demand entered => entered.all (fun m => m != 0 && (m &&& demand) == m)
  | .flagSetting flags => flags != 0
  | .powerOnReset | .frameBegin | .nop | .request .. | .renew .. | .release _ | .query _ | .find .. | .purge _
  | .domainConfig .. | .domainStatus _ | .clearFault _ | .master _ | .budgetConfig .. | .budgetStatus | .credit _
  | .classConfig .. | .limits .. | .sourceConfig _ | .sourceStatus _ | .filterConfig .. | .templateConfig ..
  | .setClock .. | .clockStatus | .voltageConfig .. | .currentConfig _ | .calibrate | .supplyStatus | .modeConfig _
  | .parkNow | .modeStatus | .events _ | .eventEnable .. | .serviceConfig .. | .clear | .clearFlags | .clearService
  | .portReset | .portLive | .canFrameError | .htmReturn _ | .answerAttemptStart | .answerAttemptEnd _
  | .pinLevelChange .. | .debounceExpiry _ | .wakeEvent _ | .handOver .. | .holdSecond | .holdExpiry _
  | .repeatExpiry _ | .appointmentStart _ | .accountingSecond | .oneSecondExpiry .. | .voltageConversion ..
  | .calibrationCompletion _ | .calibrationAbort | .budgetTierReport ..
  | .runDemandReport _ | .faultReport .. | .settleExpiry _ | .stabilityExpiry _ | .runDownExpiry _ | .backoffExpiry _
  | .ignChange _ | .ignDebounceExpiry | .parkDelayExpiry | .parkEntryRefill | .owner47Request _
  | .supplyBelowResetThreshold => true

end Sys2Proof
end

