-- ==== Sys2Proof/Decode.lean ====
section
/-! DEFINITION. Commands spelled by words of spec/opcode_table.json. No row of this table gives bits ("fixed" and
"fields" are empty throughout), so no word spells a command. The byte formats of the Control Port and of the service
frames (spec/13_formats.md) are in Machine/Formats.lean. -/

namespace Sys2Proof

/-- The command that a word of the opcode table spells: none, since no row gives bits. -/
def decodeTableWord (_nbits _w : Nat) : Option Instr := none

end Sys2Proof
end

