-- ==== Sys2Proof/Machine/State.lean ====
section
/-! DEFINITION. The state of the MN2410, block by block (00 "Block overview"), and its value after power-on reset.
Plain data throughout. Where a field is not the spec's own, its docstring says so and names the log entry. -/

namespace Sys2Proof.Machine

/-! ### The sub-blocks -/

/-- The twelve sub-blocks (00 "Block overview"). -/
inductive Block where
  | htm | tau | cbu | dsc | tmb | wsu | tpe | spm | mdc | bnl | ctp | evu
deriving DecidableEq, Repr

/-! ### Hold Table Manager -/

/-- A slot: its generation, which survives reuse (R5), and the hold in it; `none` is FREE (R1). -/
structure Slot where
  gen : BitVec 4
  hold : Option Hold
deriving DecidableEq, Repr

/-- The hold table and the three owner limits (R1, R8). -/
structure Htm where
  slots : Vector Slot 48
  netLimit : Nat
  ctlLimit : Nat
  srcLimit : Nat
deriving DecidableEq, Repr

/-! ### Tier and Admission Unit -/

/-- Floor tier and reserve of one class (R30). -/
structure ClassEntry where
  floor : Tier
  reserve : Byte
deriving DecidableEq, Repr

/-- The class table, the three recorded inputs and the effective tier (R30, R32). -/
structure Tau where
  classes : Vector ClassEntry 8
  mode : Mode
  budget : Tier
  ceiling : Tier
  effective : Tier
deriving DecidableEq, Repr

/-! ### Charge Budget Unit -/

/-- Last M of BUDGET_STATUS: absent before the first accounting second, "invalid", or a number (R69, R74). -/
inductive LastM where
  | absent | invalid | value (m : Nat)
deriving DecidableEq, Repr

/-- The budget quantities of 03. -/
structure Cbu where
  allowance : Nat
  remaining : Nat
  fraction : Nat
  tier : Tier
  quiescent : Nat
  blend : Nat
  tg : Nat
  ta : Nat
  tr : Nat
  lastD : Option Nat
  lastM : LastM
  lastE : Option Nat
  parkSeconds : Nat
  debited : Nat
  mode : Mode
deriving DecidableEq, Repr

/-! ### Domain Switch Controller -/

/-- The six states of a domain (R81). -/
inductive DomainState where
  | off | waking | on | draining | faulted | latched
deriving DecidableEq, Repr

/-- One power domain (04). `timer` is what is left of the timer of its state, in timer units; `demanded` is the
demanded status the machine last acted on (R79; log 12). -/
structure Domain where
  enable : Bool
  runEnable : Bool
  draw : Nat
  settle : Nat
  runDown : Nat
  state : DomainState
  attempts : Nat
  timer : Option Nat
  demanded : Bool
deriving DecidableEq, Repr

/-- The twelve domains, the two demand records of R79 and the master gate of R91. -/
structure Dsc where
  domains : Vector Domain 12
  holdDemand : DomainSet
  runDemand : Bool
  masterOpen : Bool
deriving DecidableEq, Repr

/-! ### Time Base -/

/-- The prescaler phase, the clock and CLOCK_UNSET (05). -/
structure Tmb where
  phase : Nat
  second : Nat
  minute : Nat
  day : Nat
  unset : Bool
deriving DecidableEq, Repr

/-! ### Wake Source Unit -/

/-- The states of a pin machine (R122). -/
inductive PinState where
  | ready | debouncing | held
deriving DecidableEq, Repr

/-- A wake pin's settings and machine (R121 to R124). -/
structure Pin where
  activeHigh : Bool
  debounce : Nat
  state : PinState
  timer : Option Nat
deriving DecidableEq, Repr

/-- A clock window (R129): `outside` is its area. -/
structure ClockWindow where
  enable : Bool
  outside : Bool
  start : Nat
  stop : Nat
  days : BitVec 7
deriving DecidableEq, Repr

/-- A tier window (R130). -/
structure TierWindow where
  enable : Bool
  outside : Bool
  minTier : Tier
deriving DecidableEq, Repr

/-- The state of one wake source (06). -/
structure Source where
  armOnce : Bool
  armAlways : Bool
  winA : ClockWindow
  winB : ClockWindow
  winT : TierWindow
  logicAnd : Bool
  template : Fin 16
  last : WakeOutcome
deriving DecidableEq, Repr

/-- The eight pins and the sixteen sources. -/
structure Wsu where
  pins : Vector Pin 8
  sources : Vector Source 16
deriving DecidableEq, Repr

/-! ### Template Engine -/

/-- The template table (R141). The events taken and not yet applied (R144) are the applications in `State.handed`. -/
structure Tpe where
  templates : Vector Template 16
deriving DecidableEq, Repr

/-! ### Supply Monitor -/

/-- The calibration status (R159 to R161). -/
inductive CalStatus where
  | never | running | done | failed | aborted
deriving DecidableEq, Repr

/-- Voltage and current monitoring (08). `measured` is M, `none` when invalid; `shorted` is the short across the
shunt input (R159). -/
structure Spm where
  code : Option Nat
  vlow : Nat
  vcrit : Nat
  ceiling : Tier
  monitor : Bool
  lastRaw : Option Int
  offset : Int
  measured : Option Nat
  cal : CalStatus
  calCount : Nat
  calSum : Int
  shorted : Bool
deriving DecidableEq, Repr

/-! ### Mode Controller -/

/-- The vehicle mode, the debounced ignition and their timers (R163, R164). -/
structure Mdc where
  mode : Mode
  ign : Bool
  ignTimer : Option Nat
  parkDelay : Nat
  parkTimer : Option Nat
deriving DecidableEq, Repr

/-! ### Body Network Listener -/

/-- The data condition of a wake filter (R127). -/
structure DataCond where
  index : Fin 8
  value : Byte
  valueMask : Byte
deriving DecidableEq, Repr

/-- A CAN wake filter (R125). -/
structure Filter where
  enable : Bool
  ident : BitVec 11
  mask : BitVec 11
  data : Option DataCond
deriving DecidableEq, Repr

/-- The states of the answer buffer (R174). -/
inductive AnswerState where
  | empty | reserved | full | sending
deriving DecidableEq, Repr

/-- What the part last put on CANTX (R169, R170, R177; log 16). -/
inductive CanTx where
  | silent
  | acknowledge
  | errorFrame
  | answer (ident : BitVec 11) (data : List Byte)
deriving DecidableEq, Repr

/-- The listener: filters, identifiers, service queue and answer buffer (09). `sendingId` is the identifier the
attempt under way was begun with (R171). -/
structure Bnl where
  enable : Bool
  serviceId : BitVec 11
  answerId : BitVec 11
  queue : List (List Byte)
  buffer : AnswerState
  cancel : Bool
  answer : Option (List Byte)
  sendingId : Option (BitVec 11)
  tx : CanTx
  filters : Vector Filter 8
deriving DecidableEq, Repr

/-! ### Control Port -/

/-- The response buffer with the prepared response (R185). -/
inductive Response where
  | empty
  | pending
  | ready (status : Status) (payload : List Byte)
deriving DecidableEq, Repr

/-- The Control Port (10). A command handed out is known by a serial number, so that its result can be told from
that of another (R185; log 7): `outstanding` lists the commands and the parts of a CLEAR that their blocks have not yet
taken, in the order of the frames that carried them (R184, R191). `inShift` is the response in shift, status and payload
(R186). -/
structure Ctp where
  live : Bool
  frame : Option (List Byte)
  buffer : Response
  awaited : Option Nat
  inShift : Option (Status × List Byte)
  outstanding : List (Nat × Instr)
  serial : Nat
deriving DecidableEq, Repr

/-! ### Event Unit -/

/-- The enable level of a flag (R194). -/
inductive Level where
  | off | attn | wakeHost
deriving DecidableEq, Repr

/-- Pending flags, levels, WAKE_HOST code and the ATTN output, which is active low (11). -/
structure Evu where
  pending : FlagSet
  levels : Vector Level 16
  wakeCode : Fin 166
  attnLow : Bool
deriving DecidableEq, Repr

/-! ### The pins the rules read -/

/-- Levels on the input pins: WP0..WP7 (1 is high), IGN and CSN (true is high), TRIP0..TRIP11 (1 is active). -/
structure Inputs where
  wake : BitVec 8
  ign : Bool
  trips : DomainSet
  csn : Bool
deriving DecidableEq, Repr

/-- The MN2410. `held` is the hold in power-on reset (R154); `handed` lists the arrivals one sub-block has handed
another and that are not yet taken, oldest first, but for what the CTP hands out, which `Ctp.outstanding` lists (log 2);
`endedByClear` marks the settings of CAL_ENDED in flight that the abort of a CLEAR handed over before that CLEAR's clearing
of the flags, each by the CLEAR's serial number (R192; log 14); `readings` counts the free readings used (log 10), and
`choices` the free choices between two aborts (log 26); `pending` is the queue of waiting commands (log 1). -/
structure State where
  held : Bool
  htm : Htm
  tau : Tau
  cbu : Cbu
  dsc : Dsc
  tmb : Tmb
  wsu : Wsu
  tpe : Tpe
  spm : Spm
  mdc : Mdc
  bnl : Bnl
  ctp : Ctp
  evu : Evu
  inputs : Inputs
  handed : List Instr
  endedByClear : List (Option Nat)
  readings : Nat
  choices : Nat
  pending : List Instr
deriving DecidableEq, Repr

/-- Why a step could stop with a fault: never. The manual gives every arrival an effect, refuses it with a status, or
ignores it (00 "Outcomes of bad input"); none stops the part. -/
inductive Fault where
deriving DecidableEq, Repr

/-- Why a step could be refused. -/
inductive Refusal where
  /-- Raised by `exec` for a command that has no meaning yet; safe. No arm of this model raises it. -/
  | notModelled (mnemonic : String)
deriving DecidableEq, Repr

/-! ### Power-on reset -/

/-- A FREE slot with generation 0 (R28). -/
def Slot.reset : Slot := { gen := 0, hold := none }

/-- The boot hold (R28). -/
def bootHold : Hold :=
  { state := .active, owner := 47, mask := 1, cls := 6, code := 60, remaining := some 60, countdown := none,
    interval := none, sinceStart := none, cap := none, charge := 0, reason := none, template := none }

/-- The table with every slot FREE and the default limits (R8, R28), before the boot hold. -/
def Htm.free : Htm :=
  { slots := Vector.replicate 48 Slot.reset, netLimit := 4, ctlLimit := 8, srcLimit := 2 }

/-- The table after power-on reset: slot 0 holds the boot hold (R28). -/
def Htm.reset : Htm :=
  { Htm.free with slots := Htm.free.slots.set 0 { gen := 0, hold := some bootHold } }

/-- The mode that power-on reset sets from the raw level of IGN (R163). -/
def Mode.atReset (ign : Bool) : Mode := if ign then .run else .park

/-- The class table of R30 and the records of R32. -/
def Tau.reset (ign : Bool) : Tau :=
  { classes := #v[⟨.green, 96⟩, ⟨.green, 80⟩, ⟨.amber, 64⟩, ⟨.amber, 48⟩, ⟨.red, 32⟩, ⟨.red, 16⟩,
      ⟨.exhausted, 8⟩, ⟨.exhausted, 0⟩],
    mode := Mode.atReset ign, budget := .green, ceiling := .green, effective := .green }

/-- The budget of R58. -/
def Cbu.reset (ign : Bool) : Cbu :=
  { allowance := 2000, remaining := 7200000, fraction := 256, tier := .green, quiescent := 5, blend := 8,
    tg := 128, ta := 64, tr := 16, lastD := none, lastM := .absent, lastE := none, parkSeconds := 0, debited := 0,
    mode := Mode.atReset ign }

/-- A domain after power-on reset (R98). -/
def Domain.reset : Domain :=
  { enable := true, runEnable := true, draw := 50, settle := 20, runDown := 5, state := .off, attempts := 0,
    timer := none, demanded := false }

/-- The domains after power-on reset, with run-demand asserted in RUN (R98). -/
def Dsc.reset (ign : Bool) : Dsc :=
  { domains := Vector.replicate 12 Domain.reset, holdDemand := 0, runDemand := ign, masterOpen := true }

/-- The clock after power-on reset (R101, R116). -/
def Tmb.reset : Tmb := { phase := 0, second := 0, minute := 0, day := 0, unset := true }

/-- A pin after power-on reset: HELD, and READY at once when it is inactive under active low (R124). -/
def Pin.reset (high : Bool) : Pin :=
  { activeHigh := false, debounce := 3, state := if high then .ready else .held, timer := none }

/-- A disabled clock window (R131). -/
def ClockWindow.reset : ClockWindow := { enable := false, outside := false, start := 0, stop := 0, days := 0 }

/-- Source n after power-on reset (R131, R133, R140). -/
def Source.reset (n : Fin 16) : Source :=
  { armOnce := false, armAlways := false, winA := ClockWindow.reset, winB := ClockWindow.reset,
    winT := { enable := false, outside := false, minTier := .exhausted }, logicAnd := false, template := n,
    last := .none }

/-- The wake sources after power-on reset. -/
def Wsu.reset (wake : BitVec 8) : Wsu :=
  { pins := Vector.ofFn fun i => Pin.reset (wake.getLsbD i), sources := Vector.ofFn Source.reset }

/-- A template after power-on reset (R141). -/
def templateReset : Template := { mask := 1, cls := 4, code := 30, cap := none, coalesce := true }

/-- The template table after power-on reset. -/
def Tpe.reset : Tpe := { templates := Vector.replicate 16 templateReset }

/-- The supply monitor after power-on reset (R162). -/
def Spm.reset : Spm :=
  { code := none, vlow := 90, vcrit := 70, ceiling := .green, monitor := true, lastRaw := none, offset := 0,
    measured := none, cal := .never, calCount := 0, calSum := 0, shorted := false }

/-- The mode controller after power-on reset (R168). -/
def Mdc.reset (ign : Bool) : Mdc :=
  { mode := Mode.atReset ign, ign := ign, ignTimer := none, parkDelay := 30, parkTimer := none }

/-- A wake filter after power-on reset (R125). -/
def Filter.reset : Filter := { enable := false, ident := 0, mask := 0x7FF, data := none }

/-- The listener after power-on reset (R180). -/
def Bnl.reset : Bnl :=
  { enable := true, serviceId := 0x5E4, answerId := 0x5E5, queue := [], buffer := .empty, cancel := false,
    answer := none, sendingId := none, tx := .silent, filters := Vector.replicate 8 Filter.reset }

/-- The Control Port after power-on reset (R188). -/
def Ctp.reset : Ctp :=
  { live := false, frame := none, buffer := .empty, awaited := none, inShift := none, outstanding := [], serial := 0 }

/-- The event unit after power-on reset (R193, R194). -/
def Evu.reset : Evu := { pending := 0, levels := Vector.replicate 16 .attn, wakeCode := 30, attnLow := false }

/-- The part while it is held in power-on reset (R154): every block at its power-on state, nothing in flight, no
boot hold yet. -/
def State.inReset (inputs : Inputs) : State :=
  { held := true, htm := Htm.free, tau := Tau.reset inputs.ign, cbu := Cbu.reset inputs.ign,
    dsc := Dsc.reset inputs.ign, tmb := Tmb.reset, wsu := Wsu.reset inputs.wake, tpe := Tpe.reset, spm := Spm.reset,
    mdc := Mdc.reset inputs.ign, bnl := Bnl.reset, ctp := Ctp.reset, evu := Evu.reset, inputs := inputs,
    handed := [], endedByClear := [], readings := 0, choices := 0, pending := [] }

/-- The part at the end of power-on reset (R28): the boot hold stands in slot 0, its report to the DSC is handed
over, and in RUN the assertion of run-demand is handed over too (R98, R163; log 12). The DSC's own record has run-demand
asserted from reset on, so the run-enabled domains act on it with D0 as the report of hold-demand is taken, and the
assertion that follows finds nothing to change (DESIGN CHOICE, log 12). -/
def State.powerOn (inputs : Inputs) : State :=
  { State.inReset inputs with
    held := false
    htm := Htm.reset
    handed := .holdDemandReport 1 [1] :: (if inputs.ign then [.runDemandReport true] else []) }

/-- The input levels of State.reset: IGN low, wake pins high (inactive), no trip, CSN high (DESIGN CHOICE, log 11). -/
def Inputs.quiet : Inputs := { wake := 0xFF, ign := false, trips := 0, csn := true }

/-- The machine right after power-on reset, parked, with quiet inputs. -/
def State.reset : State := State.powerOn Inputs.quiet

end Sys2Proof.Machine
end

