-- ==== Sys2Proof/Machine/Flags.lean ====
section
/-! DEFINITION. The sixteen event flags (R202) and what the Event Unit computes from them: ATTN (R194) and the
transitions that wake the host (R196). -/

namespace Sys2Proof.Machine

/-- The event flags in the order of R202. -/
inductive Flag where
  | wakeAccepted | wakeRefused | holdExpired | holdSuspended | holdResumed | holdCapped | holdEvicted | tierChanged
  | domainFault | domainLatched | demandUnmet | svcOverrun | svcAnswerLost | voltageCeiling | modeChanged | calEnded
deriving DecidableEq, Repr

/-- The bit of a flag (R202). -/
def Flag.bit : Flag → Nat
  | .wakeAccepted => 0
  | .wakeRefused => 1
  | .holdExpired => 2
  | .holdSuspended => 3
  | .holdResumed => 4
  | .holdCapped => 5
  | .holdEvicted => 6
  | .tierChanged => 7
  | .domainFault => 8
  | .domainLatched => 9
  | .demandUnmet => 10
  | .svcOverrun => 11
  | .svcAnswerLost => 12
  | .voltageCeiling => 13
  | .modeChanged => 14
  | .calEnded => 15

/-- The set that holds one flag. -/
def Flag.mask (f : Flag) : FlagSet := 1#16 <<< f.bit

/-- The set of the listed flags. -/
def flagsOf (fs : List Flag) : FlagSet := fs.foldr (fun f acc => f.mask ||| acc) 0

/-- ATTN is driven low while a pending flag has level ATTN or WAKE_HOST (R194). -/
def attnFormed (pending : FlagSet) (levels : Vector Level 16) : Bool :=
  (List.finRange 16).any fun n => pending.getLsbD n && levels[n] != .off

/-- Some flag among these transitions has level WAKE_HOST (R196). -/
def wakesHost (transitions : FlagSet) (levels : Vector Level 16) : Bool :=
  (List.finRange 16).any fun n => transitions.getLsbD n && levels[n] == .wakeHost

/-- The Event Unit with these pending flags, ATTN formed anew (R194). -/
def Evu.withPending (e : Evu) (pending : FlagSet) : Evu :=
  { e with pending := pending, attnLow := attnFormed pending e.levels }

end Sys2Proof.Machine
end

