-- ==== Sys2Proof/Machine/Ops.lean ====
section
/-! DEFINITION. The operations every sub-block uses: handing an arrival to another sub-block, setting event flags,
taking an arrival, taking a Control Port command and returning its result, and starting timers. -/

namespace Sys2Proof

/-- The block to which the CTP hands a command or a part of a CLEAR (the tables of 10, sections 10.6 and 10.7); `none` for
NOP, which the CTP executes itself, and for every arrival that never comes from the CTP. -/
def Instr.portBlock : Instr → Option Machine.Block
  | .request .. | .renew .. | .release _ | .query _ | .find .. | .purge _ | .limits .. | .clear => some .htm
  | .domainConfig .. | .domainStatus _ | .clearFault _ | .master _ => some .dsc
  | .budgetConfig .. | .budgetStatus | .credit _ => some .cbu
  | .classConfig .. => some .tau
  | .sourceConfig _ | .sourceStatus _ => some .wsu
  | .filterConfig .. | .serviceConfig .. | .clearService => some .bnl
  | .templateConfig .. => some .tpe
  | .setClock .. | .clockStatus => some .tmb
  | .voltageConfig .. | .currentConfig _ | .calibrate | .supplyStatus | .calibrationAbort => some .spm
  | .modeConfig _ | .parkNow | .modeStatus => some .mdc
  | .events _ | .eventEnable .. | .clearFlags => some .evu
  | .nop | .powerOnReset | .supplyBelowResetThreshold | .frameBegin | .frameRefused _ | .blockResult .. | .portReset
  | .portLive | .canFrameReceived _ | .canFrameError | .networkRequest .. | .networkRenew .. | .networkRelease ..
  | .networkQuery .. | .htmReturn _ | .answerAttemptStart | .answerAttemptEnd _ | .pinLevelChange ..
  | .debounceExpiry _ | .wakeEvent _ | .handOver .. | .application .. | .tpeReturn .. | .wsuReturn ..
  | .oneSecondExpiry .. | .holdSecond | .holdExpiry _ | .repeatExpiry _ | .appointmentStart _ | .accountingSecond
  | .attribution _ | .voltageConversion .. | .calibrationCompletion _ | .budgetTierReport ..
  | .voltageCeilingReport _ | .modeReport _ | .holdDemandReport .. | .runDemandReport _ | .faultReport ..
  | .settleExpiry _ | .stabilityExpiry _ | .runDownExpiry _ | .backoffExpiry _ | .ignChange _ | .ignDebounceExpiry
  | .parkDelayExpiry | .parkEntryRefill | .modeRecord _ | .flagSetting _ | .owner47Request _ => none

/-- The reports whose order their source keeps, each with its source and the block that takes it: to the TAU (R32, R49),
to the DSC (R79), and in the same way to the CTP (R93) and to the CBU (R62; DEDUCED, log 23). -/
def Instr.reportPath : Instr → Option (Machine.Block × Machine.Block)
  | .budgetTierReport .. => some (.cbu, .tau)
  | .voltageCeilingReport _ => some (.spm, .tau)
  | .modeReport _ => some (.mdc, .tau)
  | .holdDemandReport .. => some (.htm, .dsc)
  | .runDemandReport _ => some (.mdc, .dsc)
  | .portReset | .portLive => some (.dsc, .ctp)
  | .modeRecord _ | .parkEntryRefill => some (.mdc, .cbu)
  | _ => none

end Sys2Proof

namespace Sys2Proof.Machine

/-- What a step answers. -/
abbrev Result := Host.Outcome State Fault Refusal

/-! ### Handing over and taking -/

/-- Hand arrivals to the sub-blocks that take them; each waits in `handed` behind the earlier ones (log 2). -/
def State.handAll (s : State) (cs : List Instr) : State := { s with handed := s.handed ++ cs }

/-- Hand one arrival over. -/
def State.hand (s : State) (c : Instr) : State := s.handAll [c]

/-- Hand the Event Unit the flags that one handling sets, as one setting (R193; log 14). -/
def State.raise (s : State) (fs : List Flag) : State :=
  if fs.isEmpty then s else s.hand (.flagSetting (flagsOf fs))

/-- The arrival is taken: where it was in flight, it is so no longer (log 2). -/
def State.take (s : State) (c : Instr) : State := { s with handed := s.handed.erase c }

/-- A sub-block takes an arrival whole. While the part is held in power-on reset nothing is active (R154). -/
def arrive (c : Instr) (s : State) (handling : State → State) : Result :=
  if s.held then .next s else .next (handling (s.take c))

/-- The oldest report in flight from the source of this report to the block that takes it. -/
def State.oldestReport (s : State) (c : Instr) : Option Instr :=
  s.handed.find? fun e => e.reportPath = c.reportPath

/-- No other report of its source to its block stands before this one (R32, R79). -/
def State.reportIsNext (s : State) (c : Instr) : Bool :=
  match s.oldestReport c with
  | some e => e = c
  | none => true

/-- A sub-block takes a report whole, in the order in which its source made it (R32, R79). One that is in flight behind
an earlier one waits for its turn; one that is not in flight is handed over behind the earlier ones (log 2). -/
def arriveReport (c : Instr) (s : State) (handling : State → State) : Result :=
  if s.held then .next s
  else if s.reportIsNext c then .next (handling (s.take c))
  else if c ∈ s.handed then .next s
  else .next (s.hand c)

/-! ### Control Port commands -/

/-- A status and a payload, as a block returns them to the CTP (R184). -/
structure Reply where
  status : Status
  payload : List Byte
deriving DecidableEq, Repr

/-- A refusal by the owning block with this status. Its empty payload is the model's: R184 gives one for the refusals
by the CTP alone, and R200 gives payloads for status OK (DESIGN CHOICE, log 17). -/
def Reply.refuse (st : Status) : Reply := { status := st, payload := [] }

/-- Status OK with this payload. -/
def Reply.ok (payload : List Byte) : Reply := { status := .ok, payload := payload }

/-- What the CTP hands out beside the awaited part of a command: CLEAR's parts for the EVU, the BNL and the SPM
(R191). -/
def otherParts (c : Instr) : List Instr :=
  if c = .clear then [.clearFlags, .clearService, .calibrationAbort] else []

/-- The falling edge of CSN begins a frame and copies the response buffer as the response in shift (R186). -/
def Ctp.beginFrame (p : Ctp) : Ctp :=
  { p with
    frame := some []
    inShift := some (match p.buffer with
      | .ready st payload => (st, payload)
      | .pending => (.idle, [])
      | .empty => (.idle, [])) }

/-- The frame in progress, begun now where its falling edge was not a command of its own (log 5). -/
def Ctp.withFrame (p : Ctp) : Ctp := if p.frame.isSome then p else p.beginFrame

/-- The end of a frame whose outcome is prepared at once (R184, R187, R190). -/
def Ctp.endFrameReady (p : Ctp) (st : Status) : Ctp :=
  { p with frame := none, buffer := .ready st [], awaited := none }

/-- The end of a frame whose command is handed out: the buffer becomes PENDING and the command is the awaited one
(R184). The command takes the next serial number (log 7). -/
def Ctp.endFramePending (p : Ctp) : Ctp :=
  { p with frame := none, buffer := .pending, awaited := some p.serial, serial := p.serial + 1 }

/-- The level on CSN. -/
def State.setCsn (s : State) (high : Bool) : State := { s with inputs := { s.inputs with csn := high } }

/-- A frame can end in this step: the port is live, and either a frame is in progress, or CSN is high, so that the
frame's falling edge lies in the step too (log 5). A port that became live while CSN was low has begun none (R181). -/
def State.frameOpen (s : State) : Bool := s.ctp.live && (s.ctp.frame.isSome || s.inputs.csn)

/-- CSN rises at the end of a frame whose outcome is prepared at once (R184, R187, R190). -/
def State.frameReady (s : State) (st : Status) : State :=
  { s with ctp := s.ctp.withFrame.endFrameReady st }.setCsn true

/-- CSN rises at the end of a frame that passes: what it hands to the blocks is outstanding under its serial number, in
the order of the frames, until each block takes it (R184, R191). -/
def State.framePassed (s : State) (cs : List Instr) : State :=
  { s with
    ctp := { s.ctp.withFrame.endFramePending with
      outstanding := s.ctp.outstanding ++ cs.map fun c => (s.ctp.serial, c) } }.setCsn true

/-- The CTP hands a command to the block that owns it, with CLEAR's other parts (R184, R191). -/
def State.handOut (s : State) (c : Instr) : State := s.framePassed (c :: otherParts c)

/-- What the block of this command takes next of what the CTP has handed it: a block takes the commands in the order
of the frames that carried them (R184). -/
def Ctp.nextFor (p : Ctp) (c : Instr) : Option (Nat × Instr) :=
  p.outstanding.find? fun e => e.2.portBlock = c.portBlock

/-- A block takes what the CTP has handed it under this serial number. -/
def State.takeOutstanding (s : State) (n : Nat) (c : Instr) : State :=
  { s with ctp := { s.ctp with outstanding := s.ctp.outstanding.erase (n, c) } }

/-- A block takes a Control Port command (log 5): when the command is the next that the CTP has handed it, under its
serial number; when nothing is outstanding for the block, with the end of the frame that carries the command (R181,
R184). The answer is the serial number and the state in which the block executes the command. -/
def portTake (c : Instr) (s : State) : Option (Nat × State) :=
  match s.ctp.nextFor c with
  | some (n, next) => if next = c then some (n, s.takeOutstanding n c) else none
  | none => if s.frameOpen then some (s.ctp.serial, s.framePassed (otherParts c)) else none

/-- A Control Port command that its block does not take in this step (log 5). One that is outstanding waits for its
turn. Otherwise CSN rises: a frame that was begun ends, and its command waits behind the earlier ones of its block
(R184); where none was begun nothing is taken (R181). -/
def portLeft (c : Instr) (s : State) : State :=
  if s.ctp.outstanding.any fun e => e.2 = c then s else if s.frameOpen then s.handOut c else s.setCsn true

/-- A block executes a Control Port command and returns its result to the CTP (R184, R185). -/
def portCommand (c : Instr) (s : State) (block : State → State × Reply) : Result :=
  if s.held then .next (s.setCsn true)
  else
    match portTake c s with
    | none => .next (portLeft c s)
    | some (n, s1) =>
      let r := block s1
      .next (r.1.hand (.blockResult n r.2.status r.2.payload))

/-- A block takes its part of a CLEAR, in its turn among what the CTP hands the block (R184, R191). Where nothing is
outstanding for the block, a part is taken as it comes (log 2). -/
def partTake (c : Instr) (s : State) : Option State :=
  match s.ctp.nextFor c with
  | some (n, next) => if next = c then some (s.takeOutstanding n c) else none
  | none => some s

/-- The serial number of the CLEAR whose part a block takes; `none` where nothing is outstanding for the block and the
part is taken as it comes. -/
def Ctp.partSerial (p : Ctp) (c : Instr) : Option Nat := (p.nextFor c).map (·.1)

/-- A block handles its part of a CLEAR, which returns nothing to the port (R191). -/
def portPart (c : Instr) (s : State) (handling : State → State) : Result :=
  if s.held then .next s
  else
    match partTake c s with
    | none => .next s
    | some s1 => .next (handling s1)

/-! ### Timers -/

/-- A duration in milliseconds, in timer units. -/
def ms (n : Nat) : Nat := n * Config.unitsPerMs

/-- A duration in seconds, in timer units. -/
def seconds (n : Nat) : Nat := n * Config.unitsPerSecond

/-- A timer started with this duration (R92, R123, R163). -/
def startTimer (units : Nat) : Option Nat := some units

/-- The whole seconds a timer still has to run, rounded up (R168). -/
def secondsLeft (units : Nat) : Nat := (units + Config.unitsPerSecond - 1) / Config.unitsPerSecond

/-- A counter that rises by `n` and saturates at 4,294,967,295 (R65, R67, R109). -/
def satAdd (x n : Nat) : Nat := min (x + n) Config.counterMax

end Sys2Proof.Machine
end

