-- ==== Sys2Proof/Machine/Operands.lean ====
section
/-! DEFINITION. Argument forms: the field encodings of R199 as they are read, the normalisations of R16, and the
timeout code of R106. -/

namespace Sys2Proof.Machine

/-- A timeout code as it is taken in: 166..255 is clamped to 165 (R16, R106). -/
def clampCode (b : Byte) : Fin 166 := ⟨min b.toNat 165, by omega⟩

/-- The duration in seconds of a timeout code; code 0 has none (R106). -/
def duration (code : Fin 166) : Option Nat :=
  if code.val = 0 then none
  else if code.val ≤ 60 then some code.val
  else if code.val ≤ 119 then some ((code.val - 59) * 60)
  else some ((code.val - 117) * 1800)

/-- The horizon of a code in the admission test: its duration, or 3,600 s for code 0 (R35, R106). -/
def horizon (code : Fin 166) : Nat := (duration code).getD 3600

/-- A handle as received: slot in bits 5..0 of byte 0, generation in bits 3..0 of byte 1 (R199). -/
def handleOf (w : BitVec 16) : Handle :=
  { slot := (w.extractLsb' 8 6).toFin, gen := w.extractLsb' 0 4 }

/-- A domain mask as received: bits 15..12 are ignored (R16, R142, R199). -/
def maskOf (w : BitVec 16) : DomainSet := w.extractLsb' 0 12

/-- An argument that must be 0 or 1. -/
def boolOf (b : Byte) : Option Bool :=
  if b = 0 then some false else if b = 1 then some true else none

/-- A tier given as its number 0..3 (R31, R120). -/
def tierOfNumber (b : Byte) : Option Tier :=
  match b.toNat with
  | 0 => some .exhausted
  | 1 => some .red
  | 2 => some .amber
  | 3 => some .green
  | _ => none

/-- An index argument below n. -/
def indexOf (n : Nat) (b : Byte) : Option (Fin n) := if h : b.toNat < n then some ⟨b.toNat, h⟩ else none

/-- A number in which 0 stands for "absent" (R16, R142). -/
def presentOf (n : Nat) : Option Nat := if n = 0 then none else some n

/-- A start delay, clamped to 604,800 s (R16). -/
def delayOf (w : BitVec 32) : Option Nat := presentOf (min w.toNat 604800)

/-- A repeat interval, clamped to 10,080 min (R16). -/
def intervalOf (w : BitVec 16) : Option Nat := presentOf (min w.toNat 10080)

/-- A charge cap (R16, R142). -/
def capOf (w : BitVec 32) : Option Nat := presentOf w.toNat

/-- A hold state as a FIND value (R24, R199). -/
def holdStateOf (b : Byte) : Option HoldState :=
  match b.toNat with
  | 1 => some .scheduled
  | 2 => some .active
  | 3 => some .suspended
  | _ => none

/-- The enable level of an EVENT_ENABLE byte (R194). -/
def levelOf (b : Byte) : Option Level :=
  match b.toNat with
  | 0 => some .off
  | 1 => some .attn
  | 2 => some .wakeHost
  | _ => none

/-- An identifier of 11 bits; a higher value is not accepted (R125, R171, R200). -/
def identOf (w : BitVec 16) : Option (BitVec 11) := if w.toNat ≤ 0x7FF then some (w.extractLsb' 0 11) else none

/-- The level byte of flag n in EVENT_ENABLE, flag 0 first (R200). -/
def levelByte (levels : BitVec 128) (n : Fin 16) : Byte := levels.extractLsb' (8 * (15 - n.val)) 8

/-- An owner limit: 0 is clamped to 1 and a value above 48 to 48 (R8). -/
def limitOf (b : Byte) : Nat := max 1 (min b.toNat 48)

/-- The settings of a clock window, where its arguments are accepted (R120). The bit of the day set that names no day
is ignored. -/
def clockWindowOf (a : ClockArgs) : Option ClockWindow :=
  match boolOf a.enable, boolOf a.area with
  | some en, some out =>
    if a.start.toNat ≤ 1439 ∧ a.stop.toNat ≤ 1439 then
      some { enable := en, outside := out, start := a.start.toNat, stop := a.stop.toNat,
             days := a.days.extractLsb' 0 7 }
    else none
  | _, _ => none

/-- The settings of a tier window, where its arguments are accepted (R120). -/
def tierWindowOf (enable area minTier : Byte) : Option TierWindow :=
  match boolOf enable, boolOf area, tierOfNumber minTier with
  | some en, some out, some t => some { enable := en, outside := out, minTier := t }
  | _, _, _ => none

/-- The handle of a slot of the table, with its current generation. -/
def Slot.handle (sl : Slot) (i : Fin 48) : Handle := { slot := ⟨i.val, by omega⟩, gen := sl.gen }

end Sys2Proof.Machine
end

