-- ==== Sys2Proof/Machine/Formats.lean ====
section
/-! DEFINITION. The byte layouts of 13: field encodings, response and command frames of the Control Port with their
checksum, the hold record, service and answer frames. -/

namespace Sys2Proof.Machine

/-! ### Fields (R199) -/

/-- The `n` low bytes of a number, most significant first. -/
def beBytes : Nat → Nat → List Byte
  | 0, _ => []
  | n + 1, x => BitVec.ofNat 8 (x / 256 ^ n) :: beBytes n x

/-- A signed quantity in four bytes, two's complement. -/
def signedBytes (x : Int) : List Byte := beBytes 4 (BitVec.ofInt 32 x).toNat

/-- A yes-or-no value. -/
def yesNo (b : Bool) : List Byte := [if b then 1 else 0]

/-- A handle: the ignored bits are sent as 0. -/
def handleBytes (h : Handle) : List Byte := [BitVec.ofNat 8 h.slot.val, h.gen.setWidth 8]

/-- A domain mask. -/
def maskBytes (m : DomainSet) : List Byte := beBytes 2 m.toNat

/-- The code of a hold state. -/
def holdStateNumber : HoldState → Nat
  | .scheduled => 1
  | .active => 2
  | .suspended => 3

/-- The code of a suspend reason, 0 where there is none. -/
def reasonNumber : Option SuspendReason → Nat
  | none => 0
  | some .tierDrop => 1
  | some .notAdmitted => 2

/-- The code of a domain state. -/
def DomainState.number : DomainState → Nat
  | .off => 0
  | .waking => 1
  | .on => 2
  | .draining => 3
  | .faulted => 4
  | .latched => 5

/-- The code of a status. -/
def statusNumber : Status → Nat
  | .ok => 0
  | .idle => 1
  | .unknown => 2
  | .framing => 3
  | .check => 4
  | .arg => 5
  | .stale => 6
  | .notOwner => 7
  | .full => 8
  | .ownerLimit => 9
  | .denied => 10
  | .mode => 11

/-- The code of a mode. -/
def modeNumber : Mode → Nat
  | .run => 0
  | .parkPending => 1
  | .park => 2

/-- The code of a calibration status. -/
def CalStatus.number : CalStatus → Nat
  | .never => 0
  | .running => 1
  | .done => 2
  | .failed => 3
  | .aborted => 4

/-- The code of a pin machine state. -/
def PinState.number : PinState → Nat
  | .ready => 0
  | .debouncing => 1
  | .held => 2

/-- The code of a last outcome. -/
def outcomeNumber : WakeOutcome → Nat
  | .none => 0
  | .accepted => 1
  | .coalesced => 2
  | .window => 3
  | .disarmed => 4
  | .limit => 5
  | .full => 6

/-- The code of an answer buffer state. -/
def AnswerState.number : AnswerState → Nat
  | .empty => 0
  | .reserved => 1
  | .full => 2
  | .sending => 3

/-- The number of an enable level (R194). -/
def Level.number : Level → Nat
  | .off => 0
  | .attn => 1
  | .wakeHost => 2

/-- One byte that carries a number. -/
def byte (n : Nat) : List Byte := [BitVec.ofNat 8 n]

/-- A value of a status command that may be absent: a presence byte, then the value, 0 when absent (R199). -/
def optionalBytes (width : Nat) (x : Option Nat) : List Byte :=
  match x with
  | some v => 1 :: beBytes width v
  | none => 0 :: beBytes width 0

/-- A value that may be invalid: presence byte 2 (R199). -/
def orInvalid (x : Option Nat) : List Byte :=
  match x with
  | some v => 1 :: beBytes 4 v
  | none => 2 :: beBytes 4 0

/-! ### The checksum (R183) -/

/-- The 8-bit sum of the bytes of a frame. -/
def byteSum (bs : List Byte) : Byte := bs.foldr (· + ·) 0

/-- A frame closed by the byte that makes its 8-bit sum 0. -/
def withChecksum (bs : List Byte) : List Byte := bs ++ [-byteSum bs]

/-- The bytes of a response: status, length, payload, checksum (R186). -/
def responseBytes (r : Status × List Byte) : List Byte :=
  withChecksum (BitVec.ofNat 8 (statusNumber r.1) :: BitVec.ofNat 8 r.2.length :: r.2)

/-- The byte that SDO carries at this position of a frame: the response, then 0 (R186). -/
def sdoByte (r : Status × List Byte) (position : Nat) : Byte := (responseBytes r).getD position 0

/-! ### The hold record (R201) -/

/-- The presence byte of the hold record. -/
def presenceByte (h : Hold) : Nat :=
  (if h.remaining.isSome then 1 else 0) + (if h.countdown.isSome then 2 else 0)
    + (if h.interval.isSome then 4 else 0) + (if h.sinceStart.isSome then 8 else 0)
    + (if h.cap.isSome then 16 else 0) + (if h.reason.isSome then 32 else 0)
    + (if h.template.isSome then 64 else 0)

/-- The 33 bytes of the QUERY payload. -/
def recordBytes (handle : Handle) (h : Hold) : List Byte :=
  handleBytes handle ++ byte (holdStateNumber h.state) ++ byte h.owner.val ++ maskBytes h.mask ++ byte h.cls.val
    ++ byte h.code.val ++ byte (presenceByte h) ++ beBytes 4 (h.remaining.getD 0) ++ beBytes 4 (h.countdown.getD 0)
    ++ beBytes 2 (h.interval.getD 0) ++ beBytes 4 (h.sinceStart.getD 0) ++ beBytes 4 (h.cap.getD 0)
    ++ beBytes 4 h.charge ++ byte (reasonNumber h.reason) ++ byte ((h.template.map (·.val)).getD 0)

/-! ### Command frames (R182, R184, R200) -/

/-- Byte i of an argument list. -/
def arg8 (a : List Byte) (i : Nat) : Byte := a.getD i 0

/-- The two bytes at i, most significant first. -/
def arg16 (a : List Byte) (i : Nat) : BitVec 16 := arg8 a i ++ arg8 a (i + 1)

/-- The four bytes at i, most significant first. -/
def arg32 (a : List Byte) (i : Nat) : BitVec 32 := arg16 a i ++ arg16 a (i + 2)

/-- The eight bytes at i, most significant first. -/
def arg64 (a : List Byte) (i : Nat) : BitVec 64 := arg32 a i ++ arg32 a (i + 4)

/-- The seven bytes of a clock window at i. -/
def argWindow (a : List Byte) (i : Nat) : ClockArgs :=
  { enable := arg8 a i, area := arg8 a (i + 1), start := arg16 a (i + 2), stop := arg16 a (i + 4),
    days := arg8 a (i + 6) }

/-- The command set: for each command code its argument length L and how its arguments are read (R200). -/
def commandSet (code : Byte) : Option (Nat × (List Byte → Instr)) :=
  match code.toNat with
  | 0x00 => some (0, fun _ => .nop)
  | 0x01 => some (15, fun a =>
      .request (arg8 a 0) (arg16 a 1) (arg8 a 3) (arg8 a 4) (arg32 a 5) (arg16 a 9) (arg32 a 11))
  | 0x02 => some (3, fun a => .renew (arg16 a 0) (arg8 a 2))
  | 0x03 => some (2, fun a => .release (arg16 a 0))
  | 0x04 => some (2, fun a => .query (arg16 a 0))
  | 0x05 => some (2, fun a => .find (arg8 a 0) (arg8 a 1))
  | 0x06 => some (1, fun a => .purge (arg8 a 0))
  | 0x10 => some (7, fun a => .domainConfig (arg8 a 0) (arg8 a 1) (arg8 a 2) (arg16 a 3) (arg8 a 5) (arg8 a 6))
  | 0x11 => some (1, fun a => .domainStatus (arg8 a 0))
  | 0x12 => some (1, fun a => .clearFault (arg8 a 0))
  | 0x13 => some (1, fun a => .master (arg8 a 0))
  | 0x18 => some (11, fun a =>
      .budgetConfig (arg16 a 0) (arg16 a 2) (arg8 a 4) (arg16 a 5) (arg16 a 7) (arg16 a 9))
  | 0x19 => some (0, fun _ => .budgetStatus)
  | 0x1A => some (4, fun a => .credit (arg32 a 0))
  | 0x1B => some (3, fun a => .classConfig (arg8 a 0) (arg8 a 1) (arg8 a 2))
  | 0x1C => some (3, fun a => .limits (arg8 a 0) (arg8 a 1) (arg8 a 2))
  | 0x20 => some (24, fun a =>
      .sourceConfig
        { source := arg8 a 0, polarity := arg8 a 1, debounce := arg8 a 2, armOnce := arg8 a 3, armAlways := arg8 a 4,
          template := arg8 a 5, logic := arg8 a 6, winA := argWindow a 7, winB := argWindow a 14,
          tierEnable := arg8 a 21, tierArea := arg8 a 22, minTier := arg8 a 23 })
  | 0x21 => some (1, fun a => .sourceStatus (arg8 a 0))
  | 0x22 => some (10, fun a =>
      .filterConfig (arg8 a 0) (arg8 a 1) (arg16 a 2) (arg16 a 4) (arg8 a 6) (arg8 a 7) (arg8 a 8) (arg8 a 9))
  | 0x23 => some (10, fun a =>
      .templateConfig (arg8 a 0) (arg16 a 1) (arg8 a 3) (arg8 a 4) (arg32 a 5) (arg8 a 9))
  | 0x28 => some (4, fun a => .setClock (arg8 a 0) (arg16 a 1) (arg8 a 3))
  | 0x29 => some (0, fun _ => .clockStatus)
  | 0x30 => some (2, fun a => .voltageConfig (arg8 a 0) (arg8 a 1))
  | 0x31 => some (1, fun a => .currentConfig (arg8 a 0))
  | 0x32 => some (0, fun _ => .calibrate)
  | 0x33 => some (0, fun _ => .supplyStatus)
  | 0x38 => some (1, fun a => .modeConfig (arg8 a 0))
  | 0x39 => some (0, fun _ => .parkNow)
  | 0x3A => some (0, fun _ => .modeStatus)
  | 0x40 => some (2, fun a => .events (arg16 a 0))
  | 0x41 => some (17, fun a => .eventEnable (arg64 a 0 ++ arg64 a 8) (arg8 a 16))
  | 0x48 => some (5, fun a => .serviceConfig (arg8 a 0) (arg16 a 1) (arg16 a 3))
  | 0x50 => some (0, fun _ => .clear)
  | _ => none

/-- How the CTP judges a frame at the rising edge of CSN (R184). -/
inductive FrameVerdict where
  | refused (status : Status)
  | command (c : Instr)
deriving DecidableEq, Repr

/-- The four steps of R184 on the bytes of a frame. Bytes after the 128th are ignored, and so are those after the
first 3 + L (R182). -/
def judgeFrame (bytes : List Byte) : FrameVerdict :=
  match bytes.take 128 with
  | code :: len :: rest =>
    if len.toNat > 124 ∨ rest.length < len.toNat + 1 then .refused .framing
    else if byteSum (code :: len :: rest.take (len.toNat + 1)) ≠ 0 then .refused .check
    else
      match commandSet code with
      | none => .refused .unknown
      | some (argLength, read) =>
        if len.toNat ≠ argLength then .refused .arg else .command (read (rest.take len.toNat))
  | _ => .refused .framing

/-! The encoder of command frames: the other direction of R200. -/

/-- A 16-bit argument, most significant byte first. -/
def put16 (w : BitVec 16) : List Byte := [w.extractLsb' 8 8, w.extractLsb' 0 8]

/-- A 32-bit argument. -/
def put32 (w : BitVec 32) : List Byte := put16 (w.extractLsb' 16 16) ++ put16 (w.extractLsb' 0 16)

/-- A 64-bit argument. -/
def put64 (w : BitVec 64) : List Byte := put32 (w.extractLsb' 32 32) ++ put32 (w.extractLsb' 0 32)

/-- The seven argument bytes of a clock window. -/
def putWindow (w : ClockArgs) : List Byte := [w.enable, w.area] ++ put16 w.start ++ put16 w.stop ++ [w.days]

/-- The command code and argument bytes of a Control Port command (R200); none for the other commands. -/
def commandBytes : Instr → Option (Byte × List Byte)
  | .nop => some (0x00, [])
  | .request owner mask cls code delay interval cap =>
    some (0x01, [owner] ++ put16 mask ++ [cls, code] ++ put32 delay ++ put16 interval ++ put32 cap)
  | .renew handle code => some (0x02, put16 handle ++ [code])
  | .release handle => some (0x03, put16 handle)
  | .query handle => some (0x04, put16 handle)
  | .find selector value => some (0x05, [selector, value])
  | .purge owner => some (0x06, [owner])
  | .domainConfig domain enable runEnable draw settle runDown =>
    some (0x10, [domain, enable, runEnable] ++ put16 draw ++ [settle, runDown])
  | .domainStatus domain => some (0x11, [domain])
  | .clearFault domain => some (0x12, [domain])
  | .master setting => some (0x13, [setting])
  | .budgetConfig allowance q k tg ta tr =>
    some (0x18, put16 allowance ++ put16 q ++ [k] ++ put16 tg ++ put16 ta ++ put16 tr)
  | .budgetStatus => some (0x19, [])
  | .credit amount => some (0x1A, put32 amount)
  | .classConfig cls floor reserve => some (0x1B, [cls, floor, reserve])
  | .limits network control source => some (0x1C, [network, control, source])
  | .sourceConfig a =>
    some (0x20, [a.source, a.polarity, a.debounce, a.armOnce, a.armAlways, a.template, a.logic]
      ++ putWindow a.winA ++ putWindow a.winB ++ [a.tierEnable, a.tierArea, a.minTier])
  | .sourceStatus source => some (0x21, [source])
  | .filterConfig filter enable ident mask dataFlag index value valueMask =>
    some (0x22, [filter, enable] ++ put16 ident ++ put16 mask ++ [dataFlag, index, value, valueMask])
  | .templateConfig template mask cls code cap coalesce =>
    some (0x23, [template] ++ put16 mask ++ [cls, code] ++ put32 cap ++ [coalesce])
  | .setClock day minute second => some (0x28, [day] ++ put16 minute ++ [second])
  | .clockStatus => some (0x29, [])
  | .voltageConfig vlow vcrit => some (0x30, [vlow, vcrit])
  | .currentConfig enable => some (0x31, [enable])
  | .calibrate => some (0x32, [])
  | .supplyStatus => some (0x33, [])
  | .modeConfig delay => some (0x38, [delay])
  | .parkNow => some (0x39, [])
  | .modeStatus => some (0x3A, [])
  | .events keep => some (0x40, put16 keep)
  | .eventEnable levels code => some (0x41, put64 (levels.extractLsb' 64 64) ++ put64 (levels.extractLsb' 0 64) ++ [code])
  | .serviceConfig enable service answer => some (0x48, [enable] ++ put16 service ++ put16 answer)
  | .clear => some (0x50, [])
  | .powerOnReset | .frameBegin | .frameRefused _ | .clearFlags | .clearService | .blockResult .. | .portReset
  | .portLive | .canFrameReceived _ | .canFrameError | .networkRequest .. | .networkRenew .. | .networkRelease ..
  | .networkQuery .. | .htmReturn _ | .answerAttemptStart | .answerAttemptEnd _ | .pinLevelChange ..
  | .debounceExpiry _ | .wakeEvent _ | .handOver .. | .application .. | .tpeReturn .. | .wsuReturn ..
  | .oneSecondExpiry .. | .holdSecond | .holdExpiry _ | .repeatExpiry _ | .appointmentStart _ | .accountingSecond
  | .attribution _ | .voltageConversion .. | .calibrationCompletion _ | .calibrationAbort | .budgetTierReport ..
  | .voltageCeilingReport _ | .modeReport _ | .holdDemandReport .. | .runDemandReport _ | .faultReport ..
  | .settleExpiry _ | .stabilityExpiry _ | .runDownExpiry _ | .backoffExpiry _ | .ignChange _ | .ignDebounceExpiry
  | .parkDelayExpiry | .parkEntryRefill | .modeRecord _ | .flagSetting _ | .owner47Request _
  | .supplyBelowResetThreshold => none

/-- The frame of a Control Port command: code, length, arguments, checksum (R182). -/
def encodeFrame (c : Instr) : Option (List Byte) :=
  (commandBytes c).map fun e => withChecksum (e.1 :: BitVec.ofNat 8 e.2.length :: e.2)

/-! ### Service and answer frames (R203) -/

/-- What the service engine reads from the 8 data bytes of a service frame: an operation value other than 1..4 and a
node number above 31 are answered without the HTM (R175), with this status; otherwise the operation for the HTM. -/
inductive ServiceVerdict where
  | answer (status : Status)
  | operation (c : Instr)
deriving DecidableEq, Repr

/-- The decode of R175 in the positions of R203. -/
def judgeService (f : List Byte) : ServiceVerdict :=
  let op := (arg8 f 0).toNat
  let node := arg8 f 1
  if op = 0 ∨ op > 4 then .answer .unknown
  else if node.toNat > 31 then .answer .arg
  else if op = 1 then
    .operation (.networkRequest node (maskOf (arg16 f 2)) (arg8 f 4) (arg8 f 5) ((arg8 f 6).extractLsb' 0 4))
  else if op = 2 then .operation (.networkRenew node (handleOf (arg16 f 2)) (arg8 f 4))
  else if op = 3 then .operation (.networkRelease node (handleOf (arg16 f 2)))
  else .operation (.networkQuery node (handleOf (arg16 f 2)))

/-- The operation value of an operation (R203). -/
def netOpNumber : NetOp → Nat
  | .request => 1
  | .renew => 2
  | .release => 3
  | .query => 4

/-- The state word of an answer: hold state, suspend reason, and the time of the state (R203). -/
def stateWord (h : Hold) : Nat :=
  holdStateNumber h.state * 4194304 + reasonNumber h.reason * 1048576
    + (match h.state with
      | .scheduled => h.countdown.getD 0
      | .active | .suspended => h.remaining.getD 0)

/-- An answer of 8 bytes: status, operation and node as received, then these bytes, then unused ones. -/
def answerBytes (st : Status) (op node : Byte) (rest : List Byte) : List Byte :=
  ([BitVec.ofNat 8 (statusNumber st), op, node] ++ rest ++ List.replicate 5 0).take 8

/-- The answer for each return of the HTM (R176, R203). -/
def answerOf : NetReturn → List Byte
  | .requestOk node tag h st => answerBytes .ok 1 node ([tag.setWidth 8] ++ handleBytes h ++ byte (holdStateNumber st))
  | .requestRefused node tag st => answerBytes st 1 node [tag.setWidth 8]
  | .renewOk node h hold => answerBytes .ok 2 node (handleBytes h ++ beBytes 3 (stateWord hold))
  | .releaseOk node h => answerBytes .ok 3 node (handleBytes h)
  | .queryOk node h hold => answerBytes .ok 4 node (handleBytes h ++ beBytes 3 (stateWord hold))
  | .refused op node h st => answerBytes st (BitVec.ofNat 8 (netOpNumber op)) node (handleBytes h)

end Sys2Proof.Machine
end

