-- ==== Sys2Proof/Machine/Table.lean ====
section
/-! DEFINITION. Operations on the hold table that several sub-blocks' arrivals share: demand (R10), counts and limits
(R8), creation (R9), retirement (R12), eviction (R148), handle checks (R6), the admission test (R35, R36) and the
sweeps (R42, R44). -/

namespace Sys2Proof.Machine

/-- The slots in ascending order. -/
def allSlots : List (Fin 48) := List.finRange 48

/-- The domains in ascending order. -/
def allDomains : List (Fin 12) := List.finRange 12

/-! ### Reading the table -/

/-- The domains an ACTIVE hold of this slot covers (R1, R10). -/
def Slot.activeMask (sl : Slot) : DomainSet :=
  match sl.hold with
  | some h => if h.state = .active then h.mask else 0
  | none => 0

/-- The union of the masks of the ACTIVE holds in these slots. -/
def Htm.unionActive (t : Htm) (is : List (Fin 48)) : DomainSet :=
  is.foldr (fun i acc => t.slots[i].activeMask ||| acc) 0

/-- The set of domains with hold-demand (R10). -/
def Htm.demand (t : Htm) : DomainSet := t.unionActive allSlots

/-- The domains covered by an ACTIVE hold other than the one in the candidate's own slot (R36). -/
def Htm.coveredExcept (t : Htm) (own : Option (Fin 48)) : DomainSet :=
  t.unionActive (allSlots.filter fun i => some i ≠ own)

/-- The number of non-free slots whose hold satisfies p. -/
def Htm.countWhere (t : Htm) (p : Hold → Bool) : Nat :=
  allSlots.countP fun i => (t.slots[i].hold.map p).getD false

/-- An owner's count (R8). -/
def Htm.ownerCount (t : Htm) (owner : Fin 64) : Nat := t.countWhere fun h => h.owner = owner

/-- The limit of an owner's group (R8). -/
def Htm.ownerLimit (t : Htm) (owner : Fin 64) : Nat :=
  if owner.val ≤ 31 then t.netLimit
  else if owner.val ≤ 46 then t.ctlLimit
  else if owner.val = 47 then 1
  else t.srcLimit

/-- The lowest-numbered FREE slot (R9). -/
def Htm.firstFree (t : Htm) : Option (Fin 48) := allSlots.find? fun i => t.slots[i].hold.isNone

/-- The lowest-numbered slot whose hold satisfies p. -/
def Htm.firstWhere (t : Htm) (p : Hold → Bool) : Option (Fin 48) :=
  allSlots.find? fun i => (t.slots[i].hold.map p).getD false

/-- The handle checks of R6, in their order. -/
def Htm.resolve (t : Htm) (h : Handle) : Except Status (Fin 48 × Hold) :=
  if hs : h.slot.val < 48 then
    match t.slots[h.slot.val].hold with
    | none => .error .stale
    | some hold => if h.gen = t.slots[h.slot.val].gen then .ok (⟨h.slot.val, hs⟩, hold) else .error .stale
  else .error .arg

/-! ### Changing the table -/

/-- The table with the hold of one slot replaced; the generation stays (R5). -/
def Htm.putHold (t : Htm) (i : Fin 48) (h : Hold) : Htm :=
  { t with slots := t.slots.set i { t.slots[i] with hold := some h } }

/-- Retirement of the hold in a slot: FREE, and the generation advances by 1 modulo 16 (R5, R12). -/
def Htm.retire (t : Htm) (i : Fin 48) : Htm :=
  { t with slots := t.slots.set i { gen := t.slots[i].gen + 1, hold := none } }

/-- Retirement of every hold that satisfies p, in ascending slot order (R25, R29, R68). -/
def Htm.retireWhere (t : Htm) (p : Hold → Bool) : Htm :=
  { t with
    slots := Vector.ofFn fun i =>
      match t.slots[i].hold with
      | some h => if p h then { gen := t.slots[i].gen + 1, hold := none } else t.slots[i]
      | none => t.slots[i] }

/-- Every hold of the table changed by f. -/
def Htm.mapHolds (t : Htm) (f : Hold → Hold) : Htm :=
  { t with slots := Vector.ofFn fun i => { t.slots[i] with hold := t.slots[i].hold.map f } }

/-- The SUSPENDED hold that gives way on a full table: the lowest class present among them, and of that class the
highest slot (R148). -/
def Htm.victim (t : Htm) : Option (Fin 48) :=
  allSlots.foldl (fun best i =>
    match t.slots[i].hold with
    | some h =>
      if h.state = .suspended then
        match best with
        | none => some i
        | some b =>
          match t.slots[b].hold with
          | some hb => if h.cls.val ≤ hb.cls.val then some i else best
          | none => some i
      else best
    | none => best) none

/-- Room for a creation that may evict (R148, R149): the table, the slot to use, and whether a hold was evicted. -/
def Htm.makeRoom (t : Htm) : Option (Htm × Fin 48 × Bool) :=
  match t.firstFree with
  | some i => some (t, i, false)
  | none =>
    match t.victim with
    | some i => some (t.retire i, i, true)
    | none => none

end Sys2Proof.Machine

namespace Sys2Proof

open Sys2Proof.Machine

/-! ### The fields of a record as the hold moves (R3) -/

/-- A hold as it is created, before its state is given (R2, R3): Ch is 0. -/
def Hold.fresh (owner : Fin 64) (mask : DomainSet) (cls : Fin 8) (code : Fin 166) : Hold :=
  { state := .active, owner := owner, mask := mask, cls := cls, code := code, remaining := none, countdown := none,
    interval := none, sinceStart := none, cap := none, charge := 0, reason := none, template := none }

/-- The timers of a hold that begins to run under its stored code: the remaining time is the decoded duration, and
since-start is 0 if the hold repeats (R3, R18, R112). -/
def Hold.begun (h : Hold) : Hold :=
  { h with remaining := duration h.code, countdown := none, sinceStart := h.interval.map fun _ => 0 }

/-- A hold that waits for its start (R3, R19, R111). -/
def Hold.waiting (h : Hold) (countdown : Nat) : Hold :=
  { h with state := .scheduled, remaining := none, countdown := some countdown, sinceStart := none, reason := none }

/-- A hold that enters or stays ACTIVE. -/
def Hold.activated (h : Hold) : Hold := { h with state := .active, reason := none }

/-- A hold that enters SUSPENDED with this reason (R41). -/
def Hold.suspendedFor (h : Hold) (r : SuspendReason) : Hold := { h with state := .suspended, reason := some r }

/-- A renewal under a new code: the code is replaced and the remaining time becomes its duration (R21, R146). -/
def Hold.renewed (h : Hold) (code : Fin 166) : Hold := { h with code := code, remaining := duration code }

end Sys2Proof

namespace Sys2Proof.Machine

/-! ### Admission (R35, R36, R37) -/

/-- The allowance in mA·s (R51). -/
def Cbu.allowanceCharge (b : Cbu) : Nat := b.allowance * 3600

/-- The sum of Ni over a set of domains. -/
def Dsc.drawOf (d : Dsc) (m : DomainSet) : Nat :=
  (allDomains.map fun i => if m.getLsbD i.val then d.domains[i].draw else 0).sum

/-- The reserve of a class (R30). -/
def State.reserveOf (s : State) (cls : Fin 8) : Nat :=
  s.cbu.allowanceCharge * (s.tau.classes[cls].reserve).toNat / 256

/-- The marginal domains of a candidate (R36). -/
def State.marginal (s : State) (own : Option (Fin 48)) (mask : DomainSet) : DomainSet :=
  mask &&& ~~~ s.htm.coveredExcept own

/-- The projected cost of a candidate (R35). -/
def State.costOf (s : State) (own : Option (Fin 48)) (mask : DomainSet) (code : Fin 166) : Nat :=
  horizon code * s.dsc.drawOf (s.marginal own mask)

/-- The floor of a class is at or below the effective tier (R30, R35). -/
def Tau.floorOk (t : Tau) (cls : Fin 8) : Bool := t.classes[cls].floor.rank ≤ t.effective.rank

/-- The admission test (R35): the floor, and in PARK the budget, R - C ≥ V on unbounded integers (R37). -/
def State.admits (s : State) (own : Option (Fin 48)) (cls : Fin 8) (mask : DomainSet) (code : Fin 166) : Bool :=
  s.tau.floorOk cls
    && (s.tau.mode != .park
        || decide ((s.cbu.remaining : Int) - (s.costOf own mask code : Int) ≥ (s.reserveOf cls : Int)))

/-! ### Reports at the end of a handling (R10) -/

/-- Report to the DSC when the set of domains with hold-demand has changed since `before`, or when holds entered
ACTIVE; one handling makes at most one report (R10). -/
def State.reportDemand (s : State) (before : DomainSet) (entered : List DomainSet) : State :=
  if s.htm.demand ≠ before ∨ entered ≠ [] then s.hand (.holdDemandReport s.htm.demand entered) else s

/-- A state with another table. -/
def State.withHtm (s : State) (t : Htm) : State := { s with htm := t }

/-- The end of a handling that changed the table: one report, then the flags, once each. -/
def State.settleTable (s : State) (t : Htm) (entered : List DomainSet) (flags : List Flag) : State :=
  ((s.withHtm t).reportDemand s.htm.demand entered).raise flags

/-! ### Sweeps -/

/-- An ACTIVE hold that satisfies p. -/
def Htm.someActive (t : Htm) (p : Hold → Bool) : Bool :=
  allSlots.any fun i => (t.slots[i].hold.map fun h => h.state = .active && p h).getD false

/-- Every ACTIVE hold that satisfies p becomes SUSPENDED with reason TIER_DROP (R42, R47). -/
def Htm.suspendWhere (t : Htm) (p : Hold → Bool) : Htm :=
  t.mapHolds fun h => if h.state = .active && p h then h.suspendedFor .tierDrop else h

/-- One slot of a resume sweep: a SUSPENDED hold whose floor is at or below the effective tier is tried, and becomes
ACTIVE when it passes admission (R44). The masks of the resumed holds are gathered in slot order. -/
def resumeSlot (acc : State × List DomainSet) (i : Fin 48) : State × List DomainSet :=
  match acc.1.htm.slots[i].hold with
  | some h =>
    if h.state = .suspended && acc.1.tau.floorOk h.cls && acc.1.admits (some i) h.cls h.mask h.code then
      (acc.1.withHtm (acc.1.htm.putHold i h.activated), acc.2 ++ [h.mask])
    else acc
  | none => acc

/-- The resume sweep in ascending slot order: the state after it and the masks of the holds resumed (R44). -/
def State.resumeSweep (s : State) : State × List DomainSet := allSlots.foldl resumeSlot (s, [])

end Sys2Proof.Machine
end

