-- ==== Sys2Proof/Machine/Clockwork.lean ====
section
/-! DEFINITION. What the part does when no command waits (log 2, log 3): it takes the oldest arrival in flight, else the
oldest command that the CTP has handed out, else an expiry that is due, else one period of the crystal passes. -/

namespace Sys2Proof.Machine

/-- The expiry of a domain whose timer has run out (R92). -/
def Domain.dueExpiry (d : Domain) (i : Fin 12) : Option Instr :=
  if d.timer = some 0 then
    match d.state with
    | .waking => some (.settleExpiry i)
    | .on => some (.stabilityExpiry i)
    | .draining => some (.runDownExpiry i)
    | .faulted => some (.backoffExpiry i)
    | .off | .latched => none
  else none

/-- The debounce expiry of a pin whose timer has run out (R122). -/
def Pin.dueExpiry (p : Pin) (i : Fin 8) : Option Instr :=
  if p.timer = some 0 ∧ p.state = .debouncing then some (.debounceExpiry i) else none

/-- The MDC's expiry that is due (R163, R164). -/
def Mdc.dueExpiry (m : Mdc) : Option Instr :=
  if m.ignTimer = some 0 then some .ignDebounceExpiry
  else if m.parkTimer = some 0 ∧ m.mode = .parkPending then some .parkDelayExpiry
  else none

/-- The first expiry that is due: domains, then pins, then the MDC (log 3, DESIGN CHOICE of the order). -/
def State.dueExpiry (s : State) : Option Instr :=
  (allDomains.findSome? fun i => s.dsc.domains[i].dueExpiry i).or
    (((List.finRange 8).findSome? fun i => s.wsu.pins[i].dueExpiry i).or s.mdc.dueExpiry)

/-- What the part takes of its own accord. -/
def State.nextOwn (s : State) : Option Instr :=
  if s.held then none
  else
    match s.handed with
    | c :: _ => some c
    | [] =>
      match s.ctp.outstanding with
      | e :: _ => some e.2
      | [] => s.dueExpiry

/-- A timer one crystal period on. -/
def ageTimer (t : Option Nat) : Option Nat := t.map (· - Config.unitsPerPeriod)

/-- Every running timer one crystal period on (R92, R123, R163). -/
def State.ageTimers (s : State) : State :=
  { s with
    dsc := { s.dsc with domains := Vector.ofFn fun i => { s.dsc.domains[i] with timer := ageTimer s.dsc.domains[i].timer } }
    wsu := { s.wsu with pins := Vector.ofFn fun i => { s.wsu.pins[i] with timer := ageTimer s.wsu.pins[i].timer } }
    mdc := { s.mdc with ignTimer := ageTimer s.mdc.ignTimer, parkTimer := ageTimer s.mdc.parkTimer } }

/-- The prescaler one period on: the 32,768th completes a second (R99), whose conversions find readings that nothing
in the model fixes (log 10). -/
def State.advancePhase (s : State) : State :=
  if s.tmb.phase + 1 < Config.periodsPerSecond then { s with tmb := { s.tmb with phase := s.tmb.phase + 1 } }
  else
    { s with tmb := { s.tmb with phase := 0 }, readings := s.readings + 1 }.hand
      (.oneSecondExpiry (Config.vsenseReading s.readings) (Config.shuntReading s.readings))

/-- One period of the 32.768 kHz crystal passes (R99). In power-on reset the prescaler does not run. -/
def State.crystalPeriod (s : State) : State := if s.held then s else s.ageTimers.advancePhase

end Sys2Proof.Machine
end

