-- ==== Sys2Proof/Machine/Budget.lean ====
section
/-! DEFINITION. The Charge Budget Unit (03): the fraction and the budget tier, the accounting second with its
attribution, refill, CREDIT and BUDGET_CONFIG; and the HTM's taking of an attribution. -/

namespace Sys2Proof.Machine

/-- F = floor(R × 256 / A), exactly (R53). -/
def fractionOf (remaining allowanceCharge : Nat) : Nat := remaining * 256 / allowanceCharge

/-- The budget tier of a fraction (R53). -/
def tierOfFraction (f tg ta tr : Nat) : Tier :=
  if tg ≤ f then .green else if ta ≤ f then .amber else if tr ≤ f then .red else .exhausted

/-- F and the budget tier formed anew (R53). -/
def Cbu.formed (b : Cbu) : Cbu :=
  { b with
    fraction := fractionOf b.remaining b.allowanceCharge
    tier := tierOfFraction (fractionOf b.remaining b.allowanceCharge) b.tg b.ta b.tr }

/-- The CBU holds these quantities, F and the tier formed once, and reports the tier to the TAU when it has changed
(R53). -/
def State.withBudget (s : State) (b : Cbu) : State :=
  let s1 := { s with cbu := b.formed }
  if b.formed.tier = s.cbu.tier then s1 else s1.hand (.budgetTierReport b.formed.tier false)

/-! ### Commands -/

/-- BUDGET_CONFIG's checks (R59). -/
def thresholdsOk (tg ta tr : Nat) : Bool :=
  decide (1 ≤ tg ∧ tg ≤ 256 ∧ 1 ≤ ta ∧ ta ≤ 256 ∧ 1 ≤ tr ∧ tr ≤ 256 ∧ ta < tg ∧ tr < ta)

/-- The budget with its six settings stored and R lowered to the new A where it lies above it (R59, R60). -/
def Cbu.configured (b : Cbu) (allowance q k tg ta tr : Nat) : Cbu :=
  { b with
    allowance := allowance
    remaining := min b.remaining (allowance * 3600)
    quiescent := min q 500
    blend := min k 32
    tg := tg
    ta := ta
    tr := tr }

/-- The six settings as a response carries them. -/
def settingsBytes (b : Cbu) : List Byte :=
  beBytes 2 b.quiescent ++ byte b.blend ++ beBytes 2 b.tg ++ beBytes 2 b.ta ++ beBytes 2 b.tr

/-- BUDGET_CONFIG (R59 to R61). -/
def execBudgetConfig (allowance q : BitVec 16) (k : Byte) (tg ta tr : BitVec 16) (s : State) : Result :=
  portCommand (.budgetConfig allowance q k tg ta tr) s fun s =>
    if allowance.toNat = 0 ∨ thresholdsOk tg.toNat ta.toNat tr.toNat = false then (s, Reply.refuse .arg)
    else
      let s1 := s.withBudget (s.cbu.configured allowance.toNat q.toNat k.toNat tg.toNat ta.toNat tr.toNat)
      (s1, Reply.ok (beBytes 2 s1.cbu.allowance ++ settingsBytes s1.cbu ++ beBytes 4 s1.cbu.remaining
        ++ beBytes 4 s1.cbu.fraction))

/-- Last M as a status value (R74, R199). -/
def lastMBytes : LastM → List Byte
  | .absent => 0 :: beBytes 4 0
  | .invalid => 2 :: beBytes 4 0
  | .value m => 1 :: beBytes 4 m

/-- BUDGET_STATUS (R74): the CBU's quantities, and the effective tier and ceiling as the TAU has them. -/
def execBudgetStatus (s : State) : Result :=
  portCommand .budgetStatus s fun s =>
    (s, Reply.ok (beBytes 2 s.cbu.allowance ++ beBytes 4 s.cbu.remaining ++ beBytes 4 s.cbu.fraction
      ++ byte s.cbu.tier.rank ++ byte s.tau.effective.rank ++ byte s.tau.ceiling.rank ++ settingsBytes s.cbu
      ++ optionalBytes 4 s.cbu.lastD ++ lastMBytes s.cbu.lastM ++ optionalBytes 4 s.cbu.lastE
      ++ beBytes 4 s.cbu.parkSeconds ++ beBytes 4 s.cbu.debited))

/-- R after a credit: the lesser of A and R + x (R71). -/
def Cbu.credited (b : Cbu) (x : Nat) : Cbu := { b with remaining := min b.allowanceCharge (b.remaining + x) }

/-- CREDIT (R71). -/
def execCredit (amount : BitVec 32) (s : State) : Result :=
  portCommand (.credit amount) s fun s =>
    if amount.toNat = 0 then (s, Reply.refuse .arg)
    else
      let s1 := s.withBudget (s.cbu.credited amount.toNat)
      (s1, Reply.ok (beBytes 4 (s1.cbu.remaining - s.cbu.remaining) ++ beBytes 4 s1.cbu.remaining
        ++ beBytes 4 s1.cbu.fraction))

/-! ### Mode (R62, R70) -/

/-- MODE_RECORD of RUN or PARK_PENDING (R62). -/
def execModeRecord (mode : Mode) (s : State) : Result :=
  arriveReport (.modeRecord mode) s fun s => { s with cbu := { s.cbu with mode := mode } }

/-- The refilled budget of a new parking period (R70). -/
def Cbu.refilled (b : Cbu) : Cbu :=
  { b with mode := .park, remaining := b.allowanceCharge, parkSeconds := 0, debited := 0 }.formed

/-- PARK_ENTRY_REFILL: the tier is reported with the mode PARK whether or not it changed (R70). -/
def execParkEntryRefill (s : State) : Result :=
  arriveReport .parkEntryRefill s fun s =>
    { s with cbu := s.cbu.refilled }.hand (.budgetTierReport s.cbu.refilled.tier true)

/-! ### The accounting second -/

/-- The interval draw of a domain for one second (R57). -/
def Domain.intervalDraw (d : Domain) : Nat :=
  match d.state with
  | .off => 0
  | .waking => 2 * d.draw
  | .on => d.draw
  | .draining => d.draw
  | .faulted => 0
  | .latched => 0

/-- A domain whose gate is closed (R81). -/
def DomainState.gateClosed : DomainState → Bool
  | .waking | .on | .draining => true
  | .off | .faulted | .latched => false

/-- Stage 1: the nominal draw D (R63). -/
def State.nominalDraw (s : State) : Nat :=
  s.cbu.quiescent + (allDomains.map fun i => s.dsc.domains[i].intervalDraw).sum

/-- Stage 2: the effective draw E (R64). -/
def effectiveDraw (k : Nat) (m : Option Nat) (d : Nat) : Nat :=
  match m with
  | some m => (k * m + (32 - k) * d) / 32
  | none => d

/-- The slots whose ACTIVE hold covers a domain, in ascending order (R66). -/
def Htm.sharers (t : Htm) (d : Fin 12) : List (Fin 48) :=
  allSlots.filter fun i => t.slots[i].activeMask.getLsbD d.val

/-- What one slot receives from one domain: floor(d / n), and the remainder to the lowest slot (R66). -/
def State.shareOf (s : State) (d : Fin 12) (i : Fin 48) : Nat :=
  let is := s.htm.sharers d
  if s.dsc.domains[d].state.gateClosed && is.contains i then
    let x := s.dsc.domains[d].intervalDraw
    x / is.length + (if is.head? = some i then x % is.length else 0)
  else 0

/-- A slot whose ACTIVE hold covers a domain in WAKING, ON or DRAINING. -/
def State.shares (s : State) (i : Fin 48) : Bool :=
  allDomains.any fun d => s.dsc.domains[d].state.gateClosed && s.htm.slots[i].activeMask.getLsbD d.val

/-- Stage 4: the shares of the second by handle, in ascending slot order (R66). -/
def State.attributionOf (s : State) : List (Handle × Nat) :=
  (allSlots.filter s.shares).map fun i =>
    (s.htm.slots[i].handle i, (allDomains.map fun d => s.shareOf d i).sum)

/-- Stage 3 and the records of R69: the budget debited by E. -/
def Cbu.debitedBy (b : Cbu) (d e : Nat) (m : Option Nat) : Cbu :=
  { b with
    remaining := b.remaining - e
    debited := satAdd b.debited (b.remaining - (b.remaining - e))
    parkSeconds := satAdd b.parkSeconds 1
    lastD := some d
    lastM := match m with
      | some m => .value m
      | none => .invalid
    lastE := some e }

/-- The accounting second in its six stages (R62 to R66, R69). Whether the tier report or the attribution of one second
is taken first the manual leaves open (R69, R73); the model hands the tier report over first (DESIGN CHOICE, log 18). -/
def State.account (s : State) : State :=
  let d := s.nominalDraw
  let e := effectiveDraw s.cbu.blend s.spm.measured d
  let shares := s.attributionOf
  let s1 := s.withBudget (s.cbu.debitedBy d e s.spm.measured)
  if shares.isEmpty then s1 else s1.hand (.attribution shares)

/-- ACCOUNTING_SECOND: without effect in any mode but PARK (R62). -/
def execAccountingSecond (s : State) : Result :=
  arrive .accountingSecond s fun s => if s.cbu.mode = .park then s.account else s

/-! ### Attribution at the HTM (R67, R68) -/

/-- One share: added to the Ch of the hold its handle names, or dropped when the handle does not pass (R13, R67). -/
def Htm.addShare (t : Htm) (share : Handle × Nat) : Htm :=
  match t.resolve share.1 with
  | .ok (i, h) => t.putHold i { h with charge := satAdd h.charge share.2 }
  | .error _ => t

/-- A hold whose Ch has reached its cap (R68). -/
def capReached (h : Hold) : Bool :=
  match h.cap with
  | some c => decide (c ≤ h.charge)
  | none => false

/-- ATTRIBUTION: every share in turn, then the cap retirements (R67, R68). -/
def execAttribution (shares : List (Handle × Nat)) (s : State) : Result :=
  arrive (.attribution shares) s fun s =>
    let t := shares.foldl Htm.addShare s.htm
    s.settleTable (t.retireWhere capReached) [] (if t.countWhere capReached = 0 then [] else [.holdCapped])

end Sys2Proof.Machine
end

