-- ==== Sys2Proof/Machine/Domains.lean ====
section
/-! DEFINITION. The Domain Switch Controller (04): demand, the domain machine, faults, enable and master gate, its
timers and its commands. -/

namespace Sys2Proof.Machine

/-! ### Conditions of a domain -/

/-- Domain Di has run-demand: the indication taken with its run-enable (R78, R79). -/
def Dsc.hasRunDemand (d : Dsc) (i : Fin 12) : Bool := d.runDemand && d.domains[i].runEnable

/-- Domain Di is demanded (R79). -/
def Dsc.isDemanded (d : Dsc) (i : Fin 12) : Bool := d.holdDemand.getLsbD i.val || d.hasRunDemand i

/-- Di is D0, or the master gate is open (R81, R91). -/
def Dsc.gateFree (d : Dsc) (i : Fin 12) : Bool := decide (i.val = 0) || d.masterOpen

/-- The part can power Di: enabled, and not held off by the master gate (R81, R82). -/
def Dsc.usable (d : Dsc) (i : Fin 12) : Bool := d.domains[i].enable && d.gateFree i

/-- The Control Port is live in this state of D0 (R93). -/
def DomainState.portLive : DomainState → Bool
  | .on | .draining => true
  | .off | .waking | .faulted | .latched => false

/-! ### Transitions of one domain -/

/-- Entry into WAKING: the settle timer starts (R82). -/
def Domain.wake (d : Domain) : Domain :=
  { d with state := .waking, timer := startTimer (ms d.settle) }

/-- The wake rule of R82 on a domain in OFF. -/
def Domain.wakeIf (d : Domain) (demanded usable : Bool) : Domain :=
  if demanded && usable then d.wake else d

/-- Entry into OFF with the attempt count set to 0 (R83 to R85, R87). -/
def Domain.offCleared (d : Domain) : Domain := { d with state := .off, timer := none, attempts := 0 }

/-- Entry into OFF with the attempt count kept (R90, R91). -/
def Domain.offKept (d : Domain) : Domain := { d with state := .off, timer := none }

/-- Entry into ON: the stability timer starts with 60 s when the attempt count is above 0 (R84). -/
def Domain.enterOn (d : Domain) : Domain :=
  { d with state := .on, timer := if d.attempts = 0 then none else startTimer (seconds 60) }

/-- Demand lost: DRAINING with the run-down timer, or OFF where the run-down time is 0 (R83, R84). -/
def Domain.runOut (d : Domain) : Domain :=
  if d.runDown = 0 then d.offCleared else { d with state := .draining, timer := startTimer (seconds d.runDown) }

/-- A change of demanded status acts by the rule of the present state (R79). -/
def Domain.onDemand (d : Domain) (demanded usable : Bool) : Domain :=
  if demanded = d.demanded then d
  else
    let d := { d with demanded := demanded }
    match demanded, d.state with
    | true, .off => d.wakeIf true usable
    | true, .draining => d.enterOn
    | false, .on => d.runOut
    | _, _ => d

/-- The flag of a fault report: DOMAIN_LATCHED at the fourth attempt, else DOMAIN_FAULT (R86). -/
def Domain.tripFlag (d : Domain) : Flag := if d.attempts + 1 ≥ 4 then .domainLatched else .domainFault

/-- The backoff of an attempt count (R86, R92). -/
def backoffSeconds (attempts : Nat) : Nat := if attempts = 1 then 1 else if attempts = 2 then 4 else 16

/-- A fault report on a domain whose gate is closed (R86). -/
def Domain.tripped (d : Domain) : Domain :=
  if d.attempts + 1 ≥ 4 then { d with state := .latched, timer := none, attempts := d.attempts + 1 }
  else
    { d with state := .faulted, timer := startTimer (seconds (backoffSeconds (d.attempts + 1))),
             attempts := d.attempts + 1 }

/-! ### The end of a handling -/

/-- Every domain changed by f. -/
def Dsc.mapDomains (d : Dsc) (f : Fin 12 → Domain → Domain) : Dsc :=
  { d with domains := Vector.ofFn fun i => f i d.domains[i] }

/-- One domain changed by f. -/
def Dsc.updateDomain (d : Dsc) (i : Fin 12) (f : Domain → Domain) : Dsc :=
  { d with domains := d.domains.set i (f d.domains[i]) }

/-- What the Control Port is told as D0 crosses between the states in which the port is live and the others (R93). -/
def portCrossing (before after : DomainState) : List Instr :=
  if before.portLive = after.portLive then [] else if after.portLive then [.portLive] else [.portReset]

/-- A domain that has entered WAKING with its trip input already active: it takes a fault report at once (R86). -/
def Dsc.tripsAtEntry (before after : Dsc) (trips : DomainSet) (i : Fin 12) : Bool :=
  before.domains[i].state != .waking && after.domains[i].state == .waking && trips.getLsbD i.val

/-- The domains after the fault reports taken at entry to WAKING (R86). -/
def Dsc.afterEntryFaults (before after : Dsc) (trips : DomainSet) : Dsc :=
  after.mapDomains fun i d => if before.tripsAtEntry after trips i then d.tripped else d

/-- The flags of those fault reports, one setting for each report, in ascending order. -/
def Dsc.entryFaultFlags (before after : Dsc) (trips : DomainSet) : List Instr :=
  (allDomains.filter (before.tripsAtEntry after trips)).map fun i => .flagSetting after.domains[i].tripFlag.mask

/-- The end of a handling of the DSC that moves the domains to `d`: what the Control Port is told, the flags of the
handling, and then the fault reports of the domains that entered WAKING with their trip input active, each taken at
once as a handling of its own (R86, R93; log 15). -/
def State.settleDomains (s : State) (d : Dsc) (flags : List Flag) : State :=
  (({ s with dsc := s.dsc.afterEntryFaults d s.inputs.trips }.handAll
    (portCrossing s.dsc.domains[0].state d.domains[0].state)).raise flags).handAll
    (s.dsc.entryFaultFlags d s.inputs.trips)

/-- Each domain's demanded status worked out anew from the two records (R79). After a power-on reset in RUN the record of
run-demand is asserted while no domain has acted on it yet (R98), so the first report taken, that of hold-demand on D0,
wakes every run-enabled domain (DESIGN CHOICE, log 12). -/
def Dsc.redemanded (d : Dsc) : Dsc := d.mapDomains fun i x => x.onDemand (d.isDemanded i) (d.usable i)

/-! ### Demand reports -/

/-- A domain that cannot be powered for a hold: LATCHED, disabled, or behind the closed master gate (R80). R80 also says
that a FAULTED domain does not meet the condition, because the part will try it again; one of D1 to D11 that is FAULTED
behind the closed master gate is not tried again (R87), and the model has it meet the condition (DESIGN CHOICE,
log 22). -/
def Dsc.unmet (d : Dsc) (i : Fin 12) : Bool := d.domains[i].state == .latched || !d.usable i

/-- DEMAND_UNMET for the masks of a report (R80). -/
def Dsc.demandUnmet (d : Dsc) (entered : List DomainSet) : Bool :=
  entered.any fun m => allDomains.any fun i => m.getLsbD i.val && d.unmet i

/-- HOLD_DEMAND_REPORT (R79, R80). -/
def execHoldDemandReport (demand : DomainSet) (entered : List DomainSet) (s : State) : Result :=
  arriveReport (.holdDemandReport demand entered) s fun s =>
    s.settleDomains ({ s.dsc with holdDemand := demand }.redemanded)
      (if s.dsc.demandUnmet entered then [.demandUnmet] else [])

/-- RUN_DEMAND_REPORT (R79). -/
def execRunDemandReport (asserted : Bool) (s : State) : Result :=
  arriveReport (.runDemandReport asserted) s fun s =>
    s.settleDomains ({ s.dsc with runDemand := asserted }.redemanded) []

/-! ### Trips and timers -/

/-- The levels on the trip inputs with that of one as an arrival leaves it. -/
def tripsAfter (trips : DomainSet) (i : Fin 12) (active : Bool) : DomainSet :=
  if active then trips ||| (1#12 <<< i.val) else trips &&& ~~~ (1#12 <<< i.val)

/-- A trip input active in WAKING, ON or DRAINING (R86); ignored in the other states. -/
def State.takeTrip (s : State) (i : Fin 12) : State :=
  match s.dsc.domains[i].state with
  | .waking | .on | .draining => s.settleDomains (s.dsc.updateDomain i Domain.tripped) [s.dsc.domains[i].tripFlag]
  | .off | .faulted | .latched => s

/-- FAULT_REPORT (R86). The level of the input is kept as an input; an inactive one moves nothing. -/
def execFaultReport (domain : Fin 12) (active : Bool) (s : State) : Result :=
  if s.held then .next { s with inputs := { s.inputs with trips := tripsAfter s.inputs.trips domain active } }
  else
    arrive (.faultReport domain active) s fun s =>
      let s1 := { s with inputs := { s.inputs with trips := tripsAfter s.inputs.trips domain active } }
      if active then s1.takeTrip domain else s1

/-- SETTLE_EXPIRY (R83): ON when demanded, else DRAINING or OFF. -/
def execSettleExpiry (domain : Fin 12) (s : State) : Result :=
  arrive (.settleExpiry domain) s fun s =>
    if s.dsc.domains[domain].state = .waking then
      s.settleDomains (s.dsc.updateDomain domain fun d =>
        if s.dsc.isDemanded domain then d.enterOn else d.runOut) []
    else s

/-- STABILITY_EXPIRY (R84): the attempt count is set to 0. -/
def execStabilityExpiry (domain : Fin 12) (s : State) : Result :=
  arrive (.stabilityExpiry domain) s fun s =>
    if s.dsc.domains[domain].state = .on ∧ s.dsc.domains[domain].timer.isSome then
      s.settleDomains (s.dsc.updateDomain domain fun d => { d with attempts := 0, timer := none }) []
    else s

/-- RUN_DOWN_EXPIRY (R85): OFF with count 0. -/
def execRunDownExpiry (domain : Fin 12) (s : State) : Result :=
  arrive (.runDownExpiry domain) s fun s =>
    if s.dsc.domains[domain].state = .draining then s.settleDomains (s.dsc.updateDomain domain Domain.offCleared) []
    else s

/-- BACKOFF_EXPIRY (R87): WAKING when demanded and usable, else OFF with count 0. -/
def execBackoffExpiry (domain : Fin 12) (s : State) : Result :=
  arrive (.backoffExpiry domain) s fun s =>
    if s.dsc.domains[domain].state = .faulted then
      s.settleDomains (s.dsc.updateDomain domain fun d =>
        if s.dsc.isDemanded domain && s.dsc.usable domain then d.wake else d.offCleared) []
    else s

/-! ### Commands -/

/-- The five settings of a domain as a response carries them (R76, R78). -/
def domainSettings (d : Domain) : List Byte :=
  yesNo d.enable ++ yesNo d.runEnable ++ beBytes 2 d.draw ++ byte d.settle ++ byte d.runDown

/-- The settings of DOMAIN_CONFIG stored with their clamps (R76). -/
def Domain.withSettings (d : Domain) (enable runEnable : Bool) (draw settle runDown : Nat) : Domain :=
  { d with enable := enable, runEnable := runEnable, draw := min draw 2000, settle := max 1 (min settle 250),
           runDown := min runDown 120 }

/-- How a domain moves when its settings change: disabled, enabled, or by a change of demand; once, by the settings
as stored (R77, R90). `wasEnabled` is the enable before, `demanded` and `usable` are by the new settings. -/
def Domain.reconfigured (d : Domain) (wasEnabled demanded usable : Bool) : Domain :=
  if wasEnabled && !d.enable then
    match d.state with
    | .waking | .on | .draining | .faulted => { d.offKept with demanded := demanded }
    | .off | .latched => { d with demanded := demanded }
  else if !wasEnabled && d.enable then
    match d.state with
    | .off => { d with demanded := demanded }.wakeIf demanded usable
    | .waking | .on | .draining | .faulted | .latched => { d with demanded := demanded }
  else d.onDemand demanded usable

/-- DOMAIN_CONFIG on the domains. -/
def Dsc.configure (d : Dsc) (i : Fin 12) (enable runEnable : Bool) (draw settle runDown : Nat) : Dsc :=
  let d1 := d.updateDomain i fun x => x.withSettings enable runEnable draw settle runDown
  d1.updateDomain i fun x => x.reconfigured d.domains[i].enable (d1.isDemanded i) (d1.usable i)

/-- DOMAIN_CONFIG (R76, R77, R90). -/
def execDomainConfig (domain enable runEnable : Byte) (draw : BitVec 16) (settle runDown : Byte) (s : State) :
    Result :=
  portCommand (.domainConfig domain enable runEnable draw settle runDown) s fun s =>
    match indexOf 12 domain, boolOf enable, boolOf runEnable with
    | some i, some en, some run =>
      if i.val = 0 ∧ en = false then (s, Reply.refuse .arg)
      else
        let d := s.dsc.configure i en run draw.toNat settle.toNat runDown.toNat
        (s.settleDomains d [], Reply.ok (domainSettings d.domains[i]))
    | _, _, _ => (s, Reply.refuse .arg)

/-- DOMAIN_STATUS (R78). -/
def execDomainStatus (domain : Byte) (s : State) : Result :=
  portCommand (.domainStatus domain) s fun s =>
    (s, match indexOf 12 domain with
      | none => Reply.refuse .arg
      | some i =>
        let d := s.dsc.domains[i]
        Reply.ok (byte d.state.number ++ beBytes 4 d.attempts ++ domainSettings d
          ++ yesNo (s.dsc.holdDemand.getLsbD i.val) ++ yesNo (s.dsc.hasRunDemand i) ++ yesNo s.dsc.masterOpen))

/-- CLEAR_FAULT on the domains: OFF with count 0, then R82 at once (R89). -/
def Dsc.clearedFault (d : Dsc) (i : Fin 12) : Dsc :=
  d.updateDomain i fun x => x.offCleared.wakeIf (d.isDemanded i) (d.usable i)

/-- CLEAR_FAULT (R89). The state in the result is that after its own handling; a switch that still trips gives the fault
report that follows at once (log 15). -/
def execClearFault (domain : Byte) (s : State) : Result :=
  portCommand (.clearFault domain) s fun s =>
    match indexOf 12 domain with
    | none => (s, Reply.refuse .arg)
    | some i =>
      match s.dsc.domains[i].state with
      | .faulted | .latched =>
        (s.settleDomains (s.dsc.clearedFault i) [],
          Reply.ok (byte ((s.dsc.clearedFault i).domains[i].state.number)))
      | .off | .waking | .on | .draining => (s, Reply.refuse .mode)

/-- The master gate closed: each of D1..D11 in WAKING, ON or DRAINING enters OFF at once (R91). -/
def Dsc.closeMaster (d : Dsc) : Dsc :=
  { d with masterOpen := false }.mapDomains fun i x =>
    match x.state with
    | .waking | .on | .draining => if i.val = 0 then x else x.offKept
    | .off | .faulted | .latched => x

/-- The master gate opened: each of D1..D11 in OFF is subject to R82 (R91). -/
def Dsc.openMaster (d : Dsc) : Dsc :=
  let d1 := { d with masterOpen := true }
  d1.mapDomains fun i x =>
    match x.state with
    | .off => if i.val = 0 then x else x.wakeIf (d1.isDemanded i) (d1.usable i)
    | .waking | .on | .draining | .faulted | .latched => x

/-- MASTER (R91). -/
def execMaster (setting : Byte) (s : State) : Result :=
  portCommand (.master setting) s fun s =>
    match boolOf setting with
    | none => (s, Reply.refuse .arg)
    | some o =>
      if o = s.dsc.masterOpen then (s, Reply.ok (yesNo o))
      else (s.settleDomains (if o then s.dsc.openMaster else s.dsc.closeMaster) [], Reply.ok (yesNo o))

end Sys2Proof.Machine
end

