-- ==== Sys2Proof/Machine/Events.lean ====
section
/-! DEFINITION. The Event Unit (11): flag settings, EVENTS, EVENT_ENABLE and the EVU's part of a CLEAR. -/

namespace Sys2Proof.Machine

/-- A state with another event unit. -/
def State.withEvu (s : State) (e : Evu) : State := { s with evu := e }

/-- The EVU's handling of a setting: the flags become pending, ATTN is formed anew, and a transition at level WAKE_HOST
requests the owner-47 hold with the WAKE_HOST code as stored; several in one handling make one request (R193, R194,
R196). -/
def State.setFlags (s : State) (flags : FlagSet) : State :=
  let s1 := s.withEvu (s.evu.withPending (s.evu.pending ||| flags))
  if wakesHost (flags &&& ~~~ s.evu.pending) s.evu.levels then s1.hand (.owner47Request s.evu.wakeCode) else s1

/-- The setting of CAL_ENDED that an abort hands over (R161). -/
def calEndedSetting : Instr := .flagSetting (flagsOf [.calEnded])

/-- A setting of CAL_ENDED is taken: the mark of the oldest that a CLEAR's abort handed over goes with it (log 14). -/
def State.unmarkEnded (s : State) (flags : FlagSet) : State :=
  if flags = flagsOf [.calEnded] then { s with endedByClear := s.endedByClear.tail } else s

/-- FLAG_SETTING (R193). -/
def execFlagSetting (flags : FlagSet) (s : State) : Result :=
  arrive (.flagSetting flags) s fun s => (s.unmarkEnded flags).setFlags flags

/-- EVENTS: the flags pending before, then those whose keep-mask bit is 0 are cleared (R195). -/
def execEvents (keep : FlagSet) (s : State) : Result :=
  portCommand (.events keep) s fun s =>
    (s.withEvu (s.evu.withPending (s.evu.pending &&& keep)), Reply.ok (beBytes 2 s.evu.pending.toNat))

/-- The sixteen levels of EVENT_ENABLE, where each is accepted (R194). -/
def levelsOf (levels : BitVec 128) : Option (Vector Level 16) :=
  if (List.finRange 16).all fun n => (levelOf (levelByte levels n)).isSome then
    some (Vector.ofFn fun n => (levelOf (levelByte levels n)).getD .off)
  else none

/-- The levels and the code as a response carries them. -/
def levelBytes (e : Evu) : List Byte :=
  ((List.finRange 16).flatMap fun n => byte (e.levels[n].number)) ++ byte e.wakeCode.val

/-- EVENT_ENABLE: levels and code are stored and ATTN is formed anew; no request is made (R194). -/
def execEventEnable (levels : BitVec 128) (code : Byte) (s : State) : Result :=
  portCommand (.eventEnable levels code) s fun s =>
    match levelsOf levels with
    | none => (s, Reply.refuse .arg)
    | some ls =>
      let e := { s.evu with levels := ls, wakeCode := clampCode code }.withPending s.evu.pending
      (s.withEvu e, Reply.ok (levelBytes e))

/-- The CAL_ENDED that the abort of this CLEAR handed over before the clearing is taken now, where it is still in flight
(R192). Settings of CAL_ENDED by a completion, a mode change or another CLEAR stay in flight. -/
def State.takeEnded (s : State) (serial : Option Nat) : State :=
  if serial ∈ s.endedByClear then
    { s with
      handed := s.handed.diff (List.replicate (s.endedByClear.count serial) calEndedSetting)
      endedByClear := s.endedByClear.filter (· ≠ serial) }.setFlags (flagsOf [.calEnded])
  else s

/-- Every pending flag is cleared, and ATTN is formed anew (R191, R194). -/
def State.clearFlags (s : State) : State := s.withEvu (s.evu.withPending 0)

/-- CLEAR_FLAGS: the EVU's part of a CLEAR (R191). The CAL_ENDED of the same CLEAR's abort, where the SPM took the abort
before, is set first and then cleared (R192; log 14); every other setting in flight stays so. -/
def execClearFlags (s : State) : Result :=
  portPart .clearFlags s fun s1 => (s1.takeEnded (s.ctp.partSerial .clearFlags)).clearFlags

end Sys2Proof.Machine
end

