-- ==== Sys2Proof/Machine/Holds.lean ====
section
/-! DEFINITION. The hold operations of 01 on both ports: REQUEST, RENEW, RELEASE, QUERY, FIND, PURGE, LIMITS, and the
network operations. Each operation has one meaning (R14); the two ports differ in the owner range and in authority. -/

namespace Sys2Proof.Machine

/-- The arguments of a REQUEST after the normalisation of R16. -/
structure RequestArgs where
  owner : Nat
  mask : DomainSet
  cls : Nat
  code : Fin 166
  delay : Option Nat
  interval : Option Nat
  cap : Option Nat
deriving DecidableEq, Repr

/-- The hold that a REQUEST creates: a KEEP without a start delay (R18), an APPOINT with one (R19). The owner and the
class have passed the checks of R17. -/
def RequestArgs.hold (a : RequestArgs) : Hold :=
  let h := { Hold.fresh (Fin.ofNat 64 a.owner) a.mask (Fin.ofNat 8 a.cls) a.code with
             interval := a.interval, cap := a.cap }
  match a.delay with
  | none => h.begun
  | some d => h.waiting d

/-- The checks of R17 in their order, with the owner range lo..hi: the slot to use, or the status of the first check
that fails. -/
def State.checkRequest (s : State) (lo hi : Nat) (a : RequestArgs) : Except Status (Fin 48) :=
  if a.mask = 0 then .error .arg
  else if 7 < a.cls then .error .arg
  else if a.owner < lo ∨ hi < a.owner then .error .arg
  else if a.interval.isSome ∧ a.code.val = 0 then .error .arg
  else if s.htm.ownerLimit (Fin.ofNat 64 a.owner) ≤ s.htm.ownerCount (Fin.ofNat 64 a.owner) then .error .ownerLimit
  else
    match s.htm.firstFree with
    | none => .error .full
    | some i =>
      if a.delay.isNone ∧ s.admits none (Fin.ofNat 8 a.cls) a.mask a.code = false then .error .denied else .ok i

/-- REQUEST (R17 to R19): the state after it, and the new handle with the hold's state, or the refusal. -/
def State.takeRequest (s : State) (lo hi : Nat) (a : RequestArgs) : State × Except Status (Handle × HoldState) :=
  match s.checkRequest lo hi a with
  | .error st => (s, .error st)
  | .ok i =>
    let h := a.hold
    (s.settleTable (s.htm.putHold i h) (if h.state = .active then [h.mask] else []) [],
      .ok (s.htm.slots[i].handle i, h.state))

/-- The handle checks of R6, then on the network the authority check of R15. -/
def State.authorised (s : State) (node : Option Byte) (h : Handle) : Except Status (Fin 48 × Hold) :=
  match s.htm.resolve h with
  | .error st => .error st
  | .ok (i, hold) =>
    match node with
    | none => .ok (i, hold)
    | some n => if hold.owner.val = n.toNat then .ok (i, hold) else .error .notOwner

/-- RENEW (R20, R21): the state after it, and the hold as renewed, or the refusal. -/
def State.takeRenew (s : State) (node : Option Byte) (h : Handle) (code : Fin 166) : State × Except Status Hold :=
  match s.authorised node h with
  | .error st => (s, .error st)
  | .ok (i, hold) =>
    if hold.interval.isSome ∧ code.val = 0 then (s, .error .arg)
    else
      match hold.state with
      | .active =>
        if s.admits (some i) hold.cls hold.mask code then
          (s.withHtm (s.htm.putHold i (hold.renewed code)), .ok (hold.renewed code))
        else (s, .error .denied)
      | .suspended => (s.withHtm (s.htm.putHold i (hold.renewed code)), .ok (hold.renewed code))
      | .scheduled => (s.withHtm (s.htm.putHold i { hold with code := code }), .ok { hold with code := code })

/-- RELEASE (R22): the state after it, or the refusal. -/
def State.takeRelease (s : State) (node : Option Byte) (h : Handle) : State × Except Status Unit :=
  match s.authorised node h with
  | .error st => (s, .error st)
  | .ok (i, _) => (s.settleTable (s.htm.retire i) [] [], .ok ())

/-! ### Control Port -/

/-- The reply for a result of the table. -/
def replyOf {α : Type} (r : Except Status α) (payload : α → List Byte) : Reply :=
  match r with
  | .error st => Reply.refuse st
  | .ok a => Reply.ok (payload a)

/-- REQUEST on the Control Port: owners 32..46, with the optional fields of R16. -/
def requestArgs (owner : Byte) (mask : BitVec 16) (cls code : Byte) (delay : BitVec 32) (interval : BitVec 16)
    (cap : BitVec 32) : RequestArgs :=
  { owner := owner.toNat, mask := maskOf mask, cls := cls.toNat, code := clampCode code, delay := delayOf delay,
    interval := intervalOf interval, cap := capOf cap }

/-- REQUEST (R16 to R19). -/
def execRequest (owner : Byte) (mask : BitVec 16) (cls code : Byte) (delay : BitVec 32) (interval : BitVec 16)
    (cap : BitVec 32) (s : State) : Result :=
  portCommand (.request owner mask cls code delay interval cap) s fun s =>
    let r := s.takeRequest 32 46 (requestArgs owner mask cls code delay interval cap)
    (r.1, replyOf r.2 fun e => handleBytes e.1 ++ byte (holdStateNumber e.2))

/-- RENEW (R20, R21). The result carries the remaining time, 0 when absent (R200). -/
def execRenew (handle : BitVec 16) (code : Byte) (s : State) : Result :=
  portCommand (.renew handle code) s fun s =>
    let r := s.takeRenew none (handleOf handle) (clampCode code)
    (r.1, replyOf r.2 fun h =>
      handleBytes (handleOf handle) ++ byte (holdStateNumber h.state) ++ beBytes 4 (h.remaining.getD 0))

/-- RELEASE (R22). -/
def execRelease (handle : BitVec 16) (s : State) : Result :=
  portCommand (.release handle) s fun s =>
    let r := s.takeRelease none (handleOf handle)
    (r.1, replyOf r.2 fun _ => handleBytes (handleOf handle))

/-- QUERY (R23, R201). -/
def execQuery (handle : BitVec 16) (s : State) : Result :=
  portCommand (.query handle) s fun s =>
    (s, replyOf (s.authorised none (handleOf handle)) fun e => recordBytes (handleOf handle) e.2)

/-- What FIND matches; `none` for a selector or value it does not accept (R24). -/
def findPredicate (selector value : Byte) : Option (Hold → Bool) :=
  match selector.toNat with
  | 0 => some fun _ => true
  | 1 => if value.toNat ≤ 63 then some fun h => h.owner.val = value.toNat else none
  | 2 => (holdStateOf value).map fun st => fun h => h.state = st
  | _ => none

/-- The handles of the holds that satisfy p, in ascending slot order (R24). -/
def Htm.handlesWhere (t : Htm) (p : Hold → Bool) : List Handle :=
  (allSlots.filter fun i => (t.slots[i].hold.map p).getD false).map fun i => t.slots[i].handle i

/-- FIND (R24): the count, then the handles. -/
def execFind (selector value : Byte) (s : State) : Result :=
  portCommand (.find selector value) s fun s =>
    (s, match findPredicate selector value with
      | none => Reply.refuse .arg
      | some p => Reply.ok (byte (s.htm.countWhere p) ++ (s.htm.handlesWhere p).flatMap handleBytes))

/-- PURGE (R25). -/
def execPurge (owner : Byte) (s : State) : Result :=
  portCommand (.purge owner) s fun s =>
    if owner.toNat ≤ 63 then
      let p : Hold → Bool := fun h => h.owner.val = owner.toNat
      (s.settleTable (s.htm.retireWhere p) [] [], Reply.ok (byte (s.htm.countWhere p)))
    else (s, Reply.refuse .arg)

/-- LIMITS (R8, R190). -/
def execLimits (network control source : Byte) (s : State) : Result :=
  portCommand (.limits network control source) s fun s =>
    (s.withHtm { s.htm with netLimit := limitOf network, ctlLimit := limitOf control, srcLimit := limitOf source },
      Reply.ok (byte (limitOf network) ++ byte (limitOf control) ++ byte (limitOf source)))

/-! ### Body network (R175) -/

/-- A network REQUEST has no start delay, repeat interval or charge cap (R4, R175). -/
def netRequestArgs (node : Byte) (mask : DomainSet) (cls code : Byte) : RequestArgs :=
  { owner := node.toNat, mask := mask, cls := cls.toNat, code := clampCode code, delay := none, interval := none,
    cap := none }

/-- NETWORK_REQUEST: owners 0..31; the tag is returned, not stored (R16, R17). -/
def execNetworkRequest (node : Byte) (mask : DomainSet) (cls code : Byte) (tag : BitVec 4) (s : State) : Result :=
  arrive (.networkRequest node mask cls code tag) s fun s =>
    let r := s.takeRequest 0 31 (netRequestArgs node mask cls code)
    r.1.hand (.htmReturn (match r.2 with
      | .error st => .requestRefused node tag st
      | .ok (h, st) => .requestOk node tag h st))

/-- NETWORK_RENEW (R15, R20, R21). -/
def execNetworkRenew (node : Byte) (handle : Handle) (code : Byte) (s : State) : Result :=
  arrive (.networkRenew node handle code) s fun s =>
    let r := s.takeRenew (some node) handle (clampCode code)
    r.1.hand (.htmReturn (match r.2 with
      | .error st => .refused .renew node handle st
      | .ok h => .renewOk node handle h))

/-- NETWORK_RELEASE (R15, R22). -/
def execNetworkRelease (node : Byte) (handle : Handle) (s : State) : Result :=
  arrive (.networkRelease node handle) s fun s =>
    let r := s.takeRelease (some node) handle
    r.1.hand (.htmReturn (match r.2 with
      | .error st => .refused .release node handle st
      | .ok _ => .releaseOk node handle))

/-- NETWORK_QUERY (R15, R23). -/
def execNetworkQuery (node : Byte) (handle : Handle) (s : State) : Result :=
  arrive (.networkQuery node handle) s fun s =>
    s.hand (.htmReturn (match s.authorised (some node) handle with
      | .error st => .refused .query node handle st
      | .ok (_, h) => .queryOk node handle h))

end Sys2Proof.Machine
end

