-- ==== Sys2Proof/Machine/ModeControl.lean ====
section
/-! DEFINITION. The Mode Controller (08, section 8.4): the ignition line, the park delay and the entries to RUN,
PARK_PENDING and PARK with what each hands to its neighbours. -/

namespace Sys2Proof.Machine

/-- A state with another mode controller. -/
def State.withMdc (s : State) (m : Mdc) : State := { s with mdc := m }

/-- RUN entry (R166): the CBU and the TAU learn of RUN, run-demand is asserted, the SPM is told of the mode change, and
MODE_CHANGED is set. -/
def State.enterRun (s : State) : State :=
  ((s.withMdc { s.mdc with mode := .run, parkTimer := none }).handAll
    [.modeRecord .run, .modeReport .run, .runDemandReport true, .calibrationAbort]).raise [.modeChanged]

/-- PARK_PENDING entry (R166): the park delay timer starts; run-demand stays asserted. -/
def State.enterParkPending (s : State) : State :=
  ((s.withMdc { s.mdc with mode := .parkPending, parkTimer := startTimer (seconds s.mdc.parkDelay) }).handAll
    [.modeRecord .parkPending, .modeReport .parkPending, .calibrationAbort]).raise [.modeChanged]

/-- Park entry (R165): the CBU makes the refill and reports PARK to the TAU itself; run-demand is removed, the SPM is
told, and MODE_CHANGED is set. -/
def State.enterPark (s : State) : State :=
  ((s.withMdc { s.mdc with mode := .park, parkTimer := none }).handAll
    [.parkEntryRefill, .runDemandReport false, .calibrationAbort]).raise [.modeChanged]

/-- The MDC acts on a change of the debounced ignition (R164). -/
def State.ignitionChanged (s : State) (active : Bool) : State :=
  match s.mdc.mode, active with
  | .park, true => s.enterRun
  | .parkPending, true => s.enterRun
  | .run, false => if s.mdc.parkDelay = 0 then s.enterPark else s.enterParkPending
  | .run, true => s
  | .parkPending, false => s
  | .park, false => s

/-- IGN_CHANGE (R163): the debounce timer starts as the raw level comes to differ from the debounced state, and stops
as it returns to it. -/
def execIgnChange (high : Bool) (s : State) : Result :=
  if s.held then .next { s with inputs := { s.inputs with ign := high } }
  else
    arrive (.ignChange high) s fun s =>
      if high = s.inputs.ign then s
      else
        { s with inputs := { s.inputs with ign := high } }.withMdc
          { s.mdc with ignTimer := if high = s.mdc.ign then none else startTimer (ms 50) }

/-- IGN_DEBOUNCE_EXPIRY: the debounced state takes the raw level (R163, R164). -/
def execIgnDebounceExpiry (s : State) : Result :=
  arrive .ignDebounceExpiry s fun s =>
    if s.mdc.ignTimer.isSome then
      (s.withMdc { s.mdc with ign := s.inputs.ign, ignTimer := none }).ignitionChanged s.inputs.ign
    else s

/-- PARK_DELAY_EXPIRY (R164). -/
def execParkDelayExpiry (s : State) : Result :=
  arrive .parkDelayExpiry s fun s => if s.mdc.mode = .parkPending then s.enterPark else s

/-- MODE_CONFIG (R164). -/
def execModeConfig (delay : Byte) (s : State) : Result :=
  portCommand (.modeConfig delay) s fun s =>
    (s.withMdc { s.mdc with parkDelay := delay.toNat }, Reply.ok [delay])

/-- PARK_NOW (R164). -/
def execParkNow (s : State) : Result :=
  portCommand .parkNow s fun s =>
    match s.mdc.mode with
    | .parkPending => (s.enterPark, Reply.ok (byte (modeNumber .park)))
    | .run | .park => (s, Reply.refuse .mode)

/-- MODE_STATUS (R168). -/
def execModeStatus (s : State) : Result :=
  portCommand .modeStatus s fun s =>
    (s, Reply.ok (byte (modeNumber s.mdc.mode) ++ yesNo s.mdc.ign ++ yesNo s.inputs.ign ++ byte s.mdc.parkDelay
      ++ optionalBytes 4 (if s.mdc.mode = .parkPending then s.mdc.parkTimer.map secondsLeft else none)))

end Sys2Proof.Machine
end

