-- ==== Sys2Proof/Machine/Port.lean ====
section
/-! DEFINITION. The Control Port's own arrivals (10): the beginning and the end of a frame, NOP, the results of blocks,
the port reset, and CLEAR with its part at the hold table. -/

namespace Sys2Proof.Machine

/-- A state with another Control Port. -/
def State.withCtp (s : State) (p : Ctp) : State := { s with ctp := p }

/-- FRAME_BEGIN: a falling edge of CSN. A frame begins when the edge is taken while the port is live (R181, R186); where
CSN is low already there is no edge. -/
def execFrameBegin (s : State) : Result :=
  if s.held then .next (s.setCsn false)
  else
    arrive .frameBegin s fun s =>
      if s.ctp.live ∧ s.inputs.csn = true then (s.withCtp s.ctp.beginFrame).setCsn false else s.setCsn false

/-- FRAME_REFUSED: CSN rises and the frame is judged by R184. A refused frame makes the buffer READY with the status
of the step that failed; a frame that passes hands its command out (log 6), and NOP is executed by the CTP itself
(R190). Where no frame was begun none is taken (R181). -/
def execFrameRefused (bytes : List Byte) (s : State) : Result :=
  if s.held then .next (s.setCsn true)
  else
    arrive (.frameRefused bytes) s fun s =>
      if s.frameOpen then
        match judgeFrame (s.ctp.frame.getD [] ++ bytes) with
        | .refused st => s.frameReady st
        | .command c => if c = .nop then s.frameReady .ok else s.handOut c
      else s.setCsn true

/-- NOP: the buffer is READY at once with status OK and an empty payload (R190). -/
def execNop (s : State) : Result :=
  if s.held then .next (s.setCsn true)
  else arrive .nop s fun s => if s.frameOpen then s.frameReady .ok else s.setCsn true

/-- The byte that stands on SDO at this position of a frame (R186); `none` where SDO is undriven, which is so at every
time but in a frame (R181, R188). -/
def State.sdo (s : State) (position : Nat) : Option Byte :=
  if s.ctp.frame.isSome then s.ctp.inShift.map fun r => sdoByte r position else none

/-- BLOCK_RESULT: the result of the awaited command is prepared, that of any other is discarded (R185). -/
def execBlockResult (serial : Nat) (status : Status) (payload : List Byte) (s : State) : Result :=
  arrive (.blockResult serial status payload) s fun s =>
    if s.ctp.awaited = some serial ∧ s.ctp.buffer = .pending then
      s.withCtp { s.ctp with buffer := .ready status payload, awaited := none }
    else s

/-- PORT_RESET: D0 has left ON or DRAINING (R188). -/
def execPortReset (s : State) : Result :=
  arriveReport .portReset s fun s =>
    s.withCtp { s.ctp with live := false, frame := none, buffer := .empty, awaited := none }

/-- PORT_LIVE: D0 has entered ON or DRAINING from WAKING; the port is live with the buffer EMPTY (R93, R188). -/
def execPortLive (s : State) : Result :=
  arriveReport .portLive s fun s =>
    s.withCtp { s.ctp with live := true, frame := none, buffer := .empty, awaited := none }

/-- CLEAR's part at the hold table: every hold is retired, the loss of demand is reported once, and no flag is raised
(R29, R191). The other parts are handed out with the command (`otherParts`). -/
def execClear (s : State) : Result :=
  portCommand .clear s fun s =>
    (s.settleTable (s.htm.retireWhere fun _ => true) [] [],
      Reply.ok (byte (s.htm.countWhere fun _ => true)))

end Sys2Proof.Machine
end

