-- ==== Sys2Proof/Machine/Reset.lean ====
section
/-! DEFINITION. The supply (R28, R154): power-on reset as the supply rises above the threshold, and the hold in
power-on reset while it lies below. -/

namespace Sys2Proof.Machine

/-- POWER_ON_RESET: every block takes its power-on state from the input levels as they stand, slot 0 holds the boot
hold, and D0 is reported (R28). The queue of waiting commands is the outside's and stays (log 13). -/
def execPowerOnReset (s : State) : Result :=
  .next { State.powerOn s.inputs with pending := s.pending, readings := s.readings, choices := s.choices }

/-- SUPPLY_BELOW_RESET_THRESHOLD: every activity ends and the part is held in power-on reset (R154). -/
def execSupplyBelowResetThreshold (s : State) : Result :=
  .next { State.inReset s.inputs with pending := s.pending, readings := s.readings, choices := s.choices }

end Sys2Proof.Machine
end

