-- ==== Sys2Proof/Machine/Service.lean ====
section
/-! DEFINITION. The Body Network Listener (09, and the filters of 06): reception, wake filters, the service queue and
engine, the answer buffer and its one attempt. -/

namespace Sys2Proof.Machine

/-- A state with another listener. -/
def State.withBnl (s : State) (b : Bnl) : State := { s with bnl := b }

/-! ### Frames and filters -/

/-- The data bytes a frame carries (R169). -/
def carriedBytes (f : CanFrame) : List Byte := if f.remote then [] else f.data.take (CanFrame.lengthOf f.dlc)

/-- A data condition is met by these bytes (R127). -/
def DataCond.met (c : DataCond) (bytes : List Byte) : Bool :=
  match bytes[c.index.val]? with
  | some b => b &&& c.valueMask == c.value &&& c.valueMask
  | none => false

/-- A filter matches a frame (R126). -/
def Filter.matchesFrame (x : Filter) (ident : BitVec 11) (bytes : List Byte) : Bool :=
  x.enable && (ident &&& x.mask == x.ident &&& x.mask)
    && (match x.data with
      | none => true
      | some c => c.met bytes)

/-- The wake events of a received frame, one for each filter that matches (R128). -/
def Bnl.wakes (b : Bnl) (ident : BitVec 11) (bytes : List Byte) : List Instr :=
  ((List.finRange 8).filter fun i => b.filters[i].matchesFrame ident bytes).map
    fun i => .wakeEvent ⟨8 + i.val, by omega⟩

/-! ### The service engine -/

/-- The engine takes the oldest frame when the buffer is EMPTY: it is answered at once, or handed to the HTM with the
buffer RESERVED (R174, R175). -/
def State.engineTake (s : State) : State :=
  match s.bnl.buffer, s.bnl.queue with
  | .empty, f :: rest =>
    match judgeService f with
    | .answer st =>
      s.withBnl { s.bnl with queue := rest, buffer := .full, answer := some (answerBytes st (arg8 f 0) (arg8 f 1) []) }
    | .operation c => (s.withBnl { s.bnl with queue := rest, buffer := .reserved }).hand c
  | _, _ => s

/-- A frame considered for the service queue (R173): a data frame on the service identifier with 8 data bytes joins,
or is discarded with SVC_OVERRUN when two frames are queued. -/
def State.considerService (s : State) (ident : BitVec 11) (remote : Bool) (bytes : List Byte) : State :=
  if ident = s.bnl.serviceId ∧ remote = false ∧ bytes.length = 8 then
    if s.bnl.queue.length ≥ 2 then s.raise [.svcOverrun]
    else (s.withBnl { s.bnl with queue := s.bnl.queue ++ [bytes] }).engineTake
  else s

/-- CAN_FRAME_RECEIVED (R169, R170): acknowledged, tried against the filters and considered for the queue. A frame in
the extended format is not valid, and while the listener is disabled every frame is discarded; neither is
acknowledged. -/
def execCanFrameReceived (frame : CanFrame) (s : State) : Result :=
  arrive (.canFrameReceived frame) s fun s =>
    if frame.extended ∨ s.bnl.enable = false then s.withBnl { s.bnl with tx := .silent }
    else
      ((s.withBnl { s.bnl with tx := .acknowledge }).handAll (s.bnl.wakes frame.ident (carriedBytes frame))).considerService
        frame.ident frame.remote (carriedBytes frame)

/-- CAN_FRAME_ERROR: the frame is discarded and an error frame is signalled; while the listener is disabled none is
(R169, R170). -/
def execCanFrameError (s : State) : Result :=
  arrive .canFrameError s fun s =>
    s.withBnl { s.bnl with tx := if s.bnl.enable then .errorFrame else .silent }

/-! ### The answer buffer -/

/-- The buffer becomes EMPTY, without a mark and without an answer (R174, R177, R178). -/
def Bnl.emptied (b : Bnl) : Bnl :=
  { b with buffer := .empty, cancel := false, answer := none, sendingId := none }

/-- HTM_RETURN: the answer is written and the buffer becomes FULL; under the cancel mark the result is discarded and
the engine takes the next frame (R174, R176, R178). -/
def execHtmReturn (result : NetReturn) (s : State) : Result :=
  arrive (.htmReturn result) s fun s =>
    if s.bnl.buffer = .reserved then
      if s.bnl.cancel then (s.withBnl s.bnl.emptied).engineTake
      else s.withBnl { s.bnl with buffer := .full, answer := some (answerOf result) }
    else s

/-- ANSWER_ATTEMPT_START: a FULL answer begins its one attempt, under the answer identifier as it is read now
(R177). -/
def execAnswerAttemptStart (s : State) : Result :=
  arrive .answerAttemptStart s fun s =>
    if s.bnl.buffer = .full ∧ s.bnl.enable then
      s.withBnl { s.bnl with buffer := .sending, sendingId := some s.bnl.answerId,
                             tx := .answer s.bnl.answerId (s.bnl.answer.getD []) }
    else s

/-- ANSWER_ATTEMPT_END: the buffer becomes EMPTY, SVC_ANSWER_LOST is set on a loss unless the buffer is marked, and
the engine takes the next frame (R177, R178). -/
def execAnswerAttemptEnd (how : AttemptEnd) (s : State) : Result :=
  arrive (.answerAttemptEnd how) s fun s =>
    if s.bnl.buffer = .sending then
      ((s.withBnl { s.bnl.emptied with tx := if how = .transmitError then .errorFrame else .silent }).raise
        (if how ≠ .sent ∧ s.bnl.cancel = false then [.svcAnswerLost] else [])).engineTake
    else s

/-- What a listener disable and a CLEAR do to queue and buffer (R172, R178). -/
def Bnl.cancelled (b : Bnl) : Bnl :=
  match b.buffer with
  | .empty => { b with queue := [] }
  | .full => { b.emptied with queue := [] }
  | .reserved => { b with queue := [], cancel := true }
  | .sending => { b with queue := [], cancel := true }

/-- CLEAR_SERVICE: the BNL's part of a CLEAR (R178, R191). -/
def execClearService (s : State) : Result :=
  portPart .clearService s fun s => s.withBnl s.bnl.cancelled

/-! ### Commands -/

/-- The listener with new settings; a disable cancels what is in hand (R171, R172). -/
def Bnl.configured (b : Bnl) (enable : Bool) (service answer : BitVec 11) : Bnl :=
  let b1 := { b with enable := enable, serviceId := service, answerId := answer }
  if b.enable && !enable then b1.cancelled else b1

/-- SERVICE_CONFIG (R171). -/
def execServiceConfig (enable : Byte) (service answer : BitVec 16) (s : State) : Result :=
  portCommand (.serviceConfig enable service answer) s fun s =>
    match boolOf enable, identOf service, identOf answer with
    | some e, some sid, some aid =>
      if sid = aid then (s, Reply.refuse .arg)
      else
        let b := s.bnl.configured e sid aid
        (s.withBnl b, Reply.ok (yesNo b.enable ++ beBytes 2 b.serviceId.toNat ++ beBytes 2 b.answerId.toNat
          ++ beBytes 4 b.queue.length ++ byte b.buffer.number))
    | _, _, _ => (s, Reply.refuse .arg)

/-- The data condition of FILTER_CONFIG, where it is accepted (R125): absent, or present with an index up to 7. -/
def dataCondOf (dataFlag index value valueMask : Byte) : Option (Option DataCond) :=
  match boolOf dataFlag with
  | some false => some none
  | some true => (indexOf 8 index).map fun i => some { index := i, value := value, valueMask := valueMask }
  | none => none

/-- The settings of a filter, where they are accepted (R125). -/
def filterOf (enable : Byte) (ident mask : BitVec 16) (dataFlag index value valueMask : Byte) : Option Filter :=
  match boolOf enable, identOf ident, identOf mask, dataCondOf dataFlag index value valueMask with
  | some e, some id, some m, some c => some { enable := e, ident := id, mask := m, data := c }
  | _, _, _, _ => none

/-- A filter as a response carries it. -/
def filterBytes (x : Filter) : List Byte :=
  yesNo x.enable ++ beBytes 2 x.ident.toNat ++ beBytes 2 x.mask.toNat
    ++ (match x.data with
      | none => [0, 0, 0, 0]
      | some c => [1, BitVec.ofNat 8 c.index.val, c.value, c.valueMask])

/-- FILTER_CONFIG (R125). -/
def execFilterConfig (filter enable : Byte) (ident mask : BitVec 16) (dataFlag index value valueMask : Byte)
    (s : State) : Result :=
  portCommand (.filterConfig filter enable ident mask dataFlag index value valueMask) s fun s =>
    match indexOf 8 filter, filterOf enable ident mask dataFlag index value valueMask with
    | some i, some x => (s.withBnl { s.bnl with filters := s.bnl.filters.set i x }, Reply.ok (filterBytes x))
    | _, _ => (s, Reply.refuse .arg)

end Sys2Proof.Machine
end

