-- ==== Sys2Proof/Machine/Supply.lean ====
section
/-! DEFINITION. The Supply Monitor (08, sections 8.1 to 8.3): the voltage code and ceiling, the measured current and
its calibration. -/

namespace Sys2Proof.Machine

/-! ### Voltage -/

/-- V = floor((Vbat - 6,000) / 50), clamped to 0..255 (R154). -/
def voltageCode (vbat : Nat) : Nat := min ((vbat - 6000) / 50) 255

/-- The voltage ceiling after a conversion (R155). It never stands at AMBER. -/
def ceilingAfter (before : Tier) (v vlow vcrit : Nat) : Tier :=
  match before with
  | .green => if v < vcrit then .exhausted else if v < vlow then .red else .green
  | .red => if v < vcrit then .exhausted else if vlow + 2 ≤ v then .green else .red
  | .exhausted => if vlow + 2 ≤ v then .green else if vcrit + 2 ≤ v then .red else .exhausted
  | .amber => .amber

/-! ### Current -/

/-- What the shunt channel reads: the current, within the converter's -1,024..16,383 mA (R158, R160; log 10). -/
def rawReading (shunt : Int) : Int := max (-1024) (min shunt 16383)

/-- M = raw - O, clamped to 0..16,383 (R158). -/
def measuredOf (raw offset : Int) : Nat := (max 0 (min (raw - offset) 16383)).toNat

/-- A calibration sample (R160). -/
def Spm.sampled (m : Spm) (raw : Int) : Spm :=
  { m with lastRaw := some raw, calSum := m.calSum + raw, calCount := m.calCount + 1 }

/-- The completion at the fourth sample: the average, rounded toward minus infinity, becomes O when it lies in
-64..63 (R160). -/
def Spm.completed (m : Spm) : Spm :=
  let average := Int.fdiv m.calSum 4
  let m1 := { m with shorted := false }
  if -64 ≤ average ∧ average ≤ 63 then { m1 with offset := average, cal := .done } else { m1 with cal := .failed }

/-- The current part of an expiry: a calibration sample while RUNNING, completing at the fourth, else a current
conversion when the monitor is enabled (R158, R160). The answer says whether a calibration ended. -/
def Spm.convertCurrent (m : Spm) (raw : Int) : Spm × Bool :=
  if m.cal = .running then
    let m1 := m.sampled raw
    if m1.calCount ≥ 4 then (m1.completed, true) else (m1, false)
  else if m.monitor then ({ m with lastRaw := some raw, measured := some (measuredOf raw m.offset) }, false)
  else (m, false)

/-- The voltage part of an expiry (R154, R155). -/
def Spm.convertVoltage (m : Spm) (vbat : Nat) : Spm :=
  { m with code := some (voltageCode vbat), ceiling := ceilingAfter m.ceiling (voltageCode vbat) m.vlow m.vcrit }

/-- VOLTAGE_CONVERSION: the voltage, then the current or a sample; a changed ceiling is reported (R154 to R156, R158,
R160). -/
def execVoltageConversion (vbat : Nat) (shunt : Int) (s : State) : Result :=
  arrive (.voltageConversion vbat shunt) s fun s =>
    let m1 := s.spm.convertVoltage vbat
    let r := m1.convertCurrent (rawReading shunt)
    let moved := m1.ceiling != s.spm.ceiling
    ({ s with spm := r.1 }.handAll (if moved then [.voltageCeilingReport m1.ceiling] else [])).raise
      ((if moved then [Flag.voltageCeiling] else []) ++ (if r.2 then [Flag.calEnded] else []))

/-- CALIBRATION_COMPLETION as a row of its own (log 9): the part of the handling that takes the fourth sample. Without
effect unless a calibration is RUNNING with three samples taken. -/
def execCalibrationCompletion (shunt : Int) (s : State) : Result :=
  arrive (.calibrationCompletion shunt) s fun s =>
    if s.spm.cal = .running ∧ s.spm.calCount + 1 = 4 then
      { s with spm := (s.spm.sampled (rawReading shunt)).completed }.raise [.calEnded]
    else s

/-- The abort of a calibration that is RUNNING (R161). -/
def State.abortCalibration (s : State) : State :=
  if s.spm.cal = .running then
    { s with spm := { s.spm with cal := .aborted, calCount := 0, calSum := 0, shorted := false } }.raise [.calEnded]
  else s

/-- The clearing of the flags that belongs to this CLEAR is still to come; so it is where nothing tells the CLEAR. -/
def Ctp.clearingToCome (p : Ctp) (serial : Option Nat) : Bool :=
  match serial with
  | some n => p.outstanding.any fun e => e = (n, .clearFlags)
  | none => true

/-- The abort of a CLEAR: the CAL_ENDED it hands over is marked where the clearing of that CLEAR is still to come, which
is to find it set (R192; log 14). -/
def State.abortByClear (s : State) (serial : Option Nat) : State :=
  if s.spm.cal = .running ∧ s.ctp.clearingToCome serial = true then
    { s.abortCalibration with endedByClear := s.endedByClear ++ [serial] }
  else s.abortCalibration

/-- A CLEAR's part is the next that the CTP has handed the SPM. -/
def Ctp.clearAbortIsNext (p : Ctp) : Bool := (p.nextFor .calibrationAbort).map (·.2) = some .calibrationAbort

/-- The aborts of a mode change and of a CLEAR are both on their way to the SPM, and either may be taken (R161, R192). -/
def State.abortsMeet (s : State) : Bool := s.handed.contains .calibrationAbort && s.ctp.clearAbortIsNext

/-- One more free choice is used (log 26). -/
def State.countChoice (s : State) : State := { s with choices := s.choices + 1 }

/-- The abort of a mode change is taken (R161). -/
def takeModeAbort (s : State) : Result := arrive .calibrationAbort s State.abortCalibration

/-- The SPM's part of a CLEAR is taken (R161, R191). -/
def takeClearAbort (s : State) : Result :=
  portPart .calibrationAbort s fun s1 => s1.abortByClear (s.ctp.partSerial .calibrationAbort)

/-- CALIBRATION_ABORT: of a mode change where one is in flight, else the SPM's part of a CLEAR (R161, R191). Where both
are on their way a free value says which is taken, since R192 lets either be the first; the other is taken by a later
CALIBRATION_ABORT (log 26). -/
def execCalibrationAbort (s : State) : Result :=
  if s.held then .next s
  else if s.abortsMeet then
    if Config.clearAbortFirst s.choices then takeClearAbort s.countChoice else takeModeAbort s.countChoice
  else if s.handed.contains .calibrationAbort then takeModeAbort s
  else takeClearAbort s

/-! ### Commands -/

/-- VOLTAGE_CONFIG (R157). -/
def execVoltageConfig (vlow vcrit : Byte) (s : State) : Result :=
  portCommand (.voltageConfig vlow vcrit) s fun s =>
    if vcrit.toNat + 3 ≤ vlow.toNat then
      ({ s with spm := { s.spm with vlow := vlow.toNat, vcrit := vcrit.toNat } }, Reply.ok [vlow, vcrit])
    else (s, Reply.refuse .arg)

/-- CURRENT_CONFIG (R158): disabling makes M invalid. -/
def execCurrentConfig (enable : Byte) (s : State) : Result :=
  portCommand (.currentConfig enable) s fun s =>
    match boolOf enable with
    | none => (s, Reply.refuse .arg)
    | some e =>
      ({ s with spm := { s.spm with monitor := e, measured := if e then s.spm.measured else none } },
        Reply.ok (yesNo e))

/-- CALIBRATE (R159). -/
def execCalibrate (s : State) : Result :=
  portCommand .calibrate s fun s =>
    if s.spm.cal = .running then (s, Reply.refuse .mode)
    else
      ({ s with spm := { s.spm with cal := .running, calCount := 0, calSum := 0, shorted := true, measured := none } },
        Reply.ok (byte (CalStatus.running).number))

/-- SUPPLY_STATUS (R162). -/
def execSupplyStatus (s : State) : Result :=
  portCommand .supplyStatus s fun s =>
    (s, Reply.ok (optionalBytes 4 s.spm.code ++ byte s.spm.vlow ++ byte s.spm.vcrit ++ byte s.spm.ceiling.rank
      ++ yesNo s.spm.monitor
      ++ (match s.spm.lastRaw with
          | some x => 1 :: signedBytes x
          | none => 0 :: signedBytes 0)
      ++ signedBytes s.spm.offset ++ orInvalid s.spm.measured ++ byte s.spm.cal.number
      ++ beBytes 4 s.spm.calCount))

end Sys2Proof.Machine
end

