-- ==== Sys2Proof/Machine/Templates.lean ====
section
/-! DEFINITION. The Template Engine and the application of a template at the hold table (07), and the owner-47 request
of the Event Unit, which creates by the same rules (R197). -/

namespace Sys2Proof.Machine

/-! ### The template table -/

/-- The fields of TEMPLATE_CONFIG, where they are accepted (R142). -/
def templateOf (mask : BitVec 16) (cls code : Byte) (cap : BitVec 32) (coalesce : Byte) : Option Template :=
  match indexOf 8 cls, boolOf coalesce with
  | some c, some co =>
    if maskOf mask = 0 then none
    else some { mask := maskOf mask, cls := c, code := clampCode code, cap := capOf cap, coalesce := co }
  | _, _ => none

/-- A template as a response carries it. -/
def templateBytes (t : Template) : List Byte :=
  maskBytes t.mask ++ byte t.cls.val ++ byte t.code.val ++ beBytes 4 (t.cap.getD 0) ++ yesNo t.coalesce

/-- TEMPLATE_CONFIG (R142). -/
def execTemplateConfig (template : Byte) (mask : BitVec 16) (cls code : Byte) (cap : BitVec 32) (coalesce : Byte)
    (s : State) : Result :=
  portCommand (.templateConfig template mask cls code cap coalesce) s fun s =>
    match indexOf 16 template, templateOf mask cls code cap coalesce with
    | some i, some t =>
      ({ s with tpe := { s.tpe with templates := s.tpe.templates.set i t } }, Reply.ok (templateBytes t))
    | _, _ => (s, Reply.refuse .arg)

/-- HAND_OVER: the TPE reads the indexed template as it stands and hands the HTM an application (R144, R152). -/
def execHandOver (source template : Fin 16) (s : State) : Result :=
  arrive (.handOver source template) s fun s =>
    s.hand (.application source template s.tpe.templates[template])

/-- TPE_RETURN: the HTM's outcome goes on to the WSU with the source number (R144). -/
def execTpeReturn (source : Fin 16) (outcome : WakeOutcome) (s : State) : Result :=
  arrive (.tpeReturn source outcome) s fun s => s.hand (.wsuReturn source outcome)

/-! ### Creation with admission, for templates and for owner 47 -/

/-- A hold created by the TPE or the EVU: ACTIVE when it passes admission with no slot of its own, else SUSPENDED with
reason NOT_ADMITTED (R150, R197). `h` carries the fixed fields. -/
def State.createdHold (s : State) (h : Hold) : Hold :=
  if s.admits none h.cls h.mask h.code then h.begun.activated else h.begun.suspendedFor .notAdmitted

/-- The flags of a creation: HOLD_EVICTED, HOLD_SUSPENDED (R149, R150). -/
def creationFlags (evicted : Bool) (h : Hold) : List Flag :=
  (if evicted then [.holdEvicted] else []) ++ (if h.state = .suspended then [.holdSuspended] else [])

/-- Creation in the room that R148 finds, with report and flags; `none` when the table is full and no hold is
SUSPENDED. The eviction stands before the admission test; a SUSPENDED hold covers nothing, so the test is the same
before and after it. -/
def State.createEvicting (s : State) (h : Hold) : Option State :=
  match s.htm.makeRoom with
  | none => none
  | some (t, i, evicted) =>
    let h1 := s.createdHold h
    some (s.settleTable (t.putHold i h1) (if h1.state = .active then [h1.mask] else []) (creationFlags evicted h1))

/-! ### Applications (R145 to R150) -/

/-- The owner of a source (R7, R119). -/
def sourceOwner (i : Fin 16) : Fin 64 := ⟨48 + i.val, by omega⟩

/-- The hold that an application coalesces into: the lowest slot with this owner and template index (R145). -/
def Htm.coalesceSlot (t : Htm) (source template : Fin 16) : Option (Fin 48) :=
  t.firstWhere fun h => h.owner = sourceOwner source && h.template == some template

/-- The fixed fields of a hold made from a template (R150). -/
def templateHold (source index : Fin 16) (t : Template) : Hold :=
  { Hold.fresh (sourceOwner source) t.mask t.cls t.code with cap := t.cap, template := some index }

/-- The coalescing renewal of the hold in a slot (R146). One with code 1 taken just before the hold second does not keep
the hold from expiring there: R109 is followed, not R151 (DESIGN CHOICE, log 24). -/
def Htm.coalesce (t : Htm) (i : Fin 48) (code : Fin 166) : Htm :=
  match t.slots[i].hold with
  | some h => t.putHold i (h.renewed code)
  | none => t

/-- Steps 2 to 4 of an application: owner limit, room, creation with admission (R147 to R150). -/
def State.applyNew (s : State) (source index : Fin 16) (t : Template) : State × WakeOutcome :=
  if s.htm.ownerLimit (sourceOwner source) ≤ s.htm.ownerCount (sourceOwner source) then (s, .limit)
  else
    match s.createEvicting (templateHold source index t) with
    | none => (s, .full)
    | some s1 => (s1, .accepted)

/-- An application in its four steps: the state after it and the outcome (R145 to R150). -/
def State.apply (s : State) (source index : Fin 16) (t : Template) : State × WakeOutcome :=
  match (if t.coalesce then s.htm.coalesceSlot source index else none) with
  | some i => (s.withHtm (s.htm.coalesce i t.code), .coalesced)
  | none => s.applyNew source index t

/-- APPLICATION (R144 to R150): the outcome returns to the TPE. -/
def execApplication (source template : Fin 16) (fields : Template) (s : State) : Result :=
  arrive (.application source template fields) s fun s =>
    let r := s.apply source template fields
    r.1.hand (.tpeReturn source r.2)

/-! ### The owner-47 hold (R197) -/

/-- The fixed form of the owner-47 hold (R4, R197). -/
def hostHold (code : Fin 166) : Hold := Hold.fresh 47 1 6 code

/-- A request's code gives a longer time than the hold has left. Code 0 counts as longer than any remaining time, and
a hold whose code is already 0 is left as it is (R197). -/
def isLonger (code : Fin 166) (h : Hold) : Bool :=
  match duration code with
  | none => h.code.val ≠ 0
  | some d => h.code.val ≠ 0 && decide (h.remaining.getD 0 < d)

/-- The renewal of an existing owner-47 hold (R197). -/
def Htm.renewHost (t : Htm) (i : Fin 48) (code : Fin 166) : Htm :=
  match t.slots[i].hold with
  | some h => if isLonger code h then t.putHold i (h.renewed code) else t
  | none => t

/-- OWNER_47_REQUEST (R197). -/
def execOwner47Request (code : Fin 166) (s : State) : Result :=
  arrive (.owner47Request code) s fun s =>
    match s.htm.firstWhere fun h => h.owner = 47 with
    | some i => s.withHtm (s.htm.renewHost i code)
    | none =>
      match s.createEvicting (hostHold code) with
      | some s1 => s1
      | none => s

end Sys2Proof.Machine
end

