-- ==== Sys2Proof/Machine/Tiers.lean ====
section
/-! DEFINITION. The Tier and Admission Unit (02): the effective tier, the reports it takes with the sweeps they call
for, and CLASS_CONFIG. -/

namespace Sys2Proof.Machine

/-- The lower of two tiers. -/
def lowerTier (a b : Tier) : Tier := if a.rank ≤ b.rank then a else b

/-- The effective tier formed from the three records (R33). -/
def Tau.formed (t : Tau) : Tier :=
  match t.mode with
  | .run => .green
  | .parkPending => .green
  | .park => lowerTier t.budget t.ceiling

/-- A hold whose class floor is above the effective tier. -/
def Tau.aboveTier (t : Tau) (h : Hold) : Bool := !t.floorOk h.cls

/-- The suspend sweep with its report and flags (R40 to R42). -/
def State.sweepDown (s : State) (flags : List Flag) : State :=
  s.settleTable (s.htm.suspendWhere s.tau.aboveTier) []
    (flags ++ (if s.htm.someActive s.tau.aboveTier then [.holdSuspended] else []))

/-- The resume sweep with its report and flags (R43, R44). -/
def State.sweepUp (s : State) (flags : List Flag) : State :=
  let r := s.resumeSweep
  s.settleTable r.1.htm r.2 (flags ++ (if r.2 = [] then [] else [.holdResumed]))

/-- The TAU takes a report that gives these records (R34): it forms the effective tier anew and sweeps when it has
fallen or risen, in one handling with the table. A report of the mode RUN sweeps whether or not the tier rose
(R46). Of a report of PARK_PENDING R46 says that it leaves the tier GREEN and performs no sweep; where the tier held
before is below GREEN, because the refill report of PARK was taken first (R49), the model follows R34: the tier rises,
with TIER_CHANGED and the resume sweep (DESIGN CHOICE, log 25). -/
def State.tierReport (s : State) (records : Tau) (runReport : Bool) : State :=
  let s1 := { s with tau := { records with effective := records.formed } }
  if records.formed.rank < s.tau.effective.rank then s1.sweepDown [.tierChanged]
  else if s.tau.effective.rank < records.formed.rank then s1.sweepUp [.tierChanged]
  else if runReport then s1.sweepUp []
  else s1

/-- BUDGET_TIER_REPORT: the budget tier, with the mode PARK in the refill report (R34, R70). -/
def execBudgetTierReport (tier : Tier) (parkEntry : Bool) (s : State) : Result :=
  arriveReport (.budgetTierReport tier parkEntry) s fun s =>
    s.tierReport { s.tau with budget := tier, mode := if parkEntry then .park else s.tau.mode } false

/-- VOLTAGE_CEILING_REPORT (R32, R156). -/
def execVoltageCeilingReport (ceiling : Tier) (s : State) : Result :=
  arriveReport (.voltageCeilingReport ceiling) s fun s => s.tierReport { s.tau with ceiling := ceiling } false

/-- MODE_REPORT of RUN or PARK_PENDING (R32, R46). -/
def execModeReport (mode : Mode) (s : State) : Result :=
  arriveReport (.modeReport mode) s fun s => s.tierReport { s.tau with mode := mode } (mode = .run)

/-- CLASS_CONFIG's effect on the table once the class entry is stored (R47): a floor raised above the effective tier
suspends the ACTIVE holds of the class, a lowered floor runs a resume sweep. -/
def State.applyFloor (s : State) (cls : Fin 8) (old new : Tier) : State :=
  if old.rank < new.rank then
    if s.tau.effective.rank < new.rank then
      s.settleTable (s.htm.suspendWhere fun h => h.cls = cls) []
        (if s.htm.someActive fun h => h.cls = cls then [.holdSuspended] else [])
    else s
  else if new.rank < old.rank then s.sweepUp []
  else s

/-- CLASS_CONFIG (R31, R47). -/
def execClassConfig (cls floor reserve : Byte) (s : State) : Result :=
  portCommand (.classConfig cls floor reserve) s fun s =>
    match indexOf 8 cls, tierOfNumber floor with
    | some c, some f =>
      let s1 := { s with tau := { s.tau with classes := s.tau.classes.set c { floor := f, reserve := reserve } } }
      (s1.applyFloor c s.tau.classes[c].floor f, Reply.ok (byte f.rank ++ [reserve]))
    | _, _ => (s, Reply.refuse .arg)

end Sys2Proof.Machine
end

