-- ==== Sys2Proof/Machine/Time.lean ====
section
/-! DEFINITION. The Time Base and the hold second (05): the clock, SET_CLOCK, CLOCK_STATUS, counting, expiry and
starts. -/

namespace Sys2Proof.Machine

/-! ### The clock -/

/-- The clock one second on, with its carries (R101). -/
def Tmb.advanced (c : Tmb) : Tmb :=
  if c.second < 59 then { c with second := c.second + 1 }
  else if c.minute < 1439 then { c with second := 0, minute := c.minute + 1 }
  else if c.day < 6 then { c with second := 0, minute := 0, day := c.day + 1 }
  else { c with second := 0, minute := 0, day := 0 }

/-- ONE_SECOND_EXPIRY: the second is complete, the next starts from phase zero, the clock advances, and the expiry is
handed to the CBU, the HTM and the SPM (R99 to R101). R100 says that the TMB does not order its four recipients; the model
always advances the clock first, in the step of the expiry itself, so that the other three take the expiry after it
(DESIGN CHOICE, log 18). -/
def execOneSecondExpiry (vbat : Nat) (shunt : Int) (s : State) : Result :=
  arrive (.oneSecondExpiry vbat shunt) s fun s =>
    { s with tmb := { s.tmb.advanced with phase := 0 } }.handAll
      [.accountingSecond, .holdSecond, .voltageConversion vbat shunt]

/-- The clock as a response carries it (R103, R104). -/
def clockBytes (c : Tmb) : List Byte := byte c.day ++ beBytes 2 c.minute ++ byte c.second

/-- SET_CLOCK (R103). The sub-second phase is left as it stands. -/
def execSetClock (day : Byte) (minute : BitVec 16) (second : Byte) (s : State) : Result :=
  portCommand (.setClock day minute second) s fun s =>
    if 6 < day.toNat ∨ 1439 < minute.toNat ∨ 59 < second.toNat then (s, Reply.refuse .arg)
    else
      let c := { s.tmb with day := day.toNat, minute := minute.toNat, second := second.toNat, unset := false }
      ({ s with tmb := c }, Reply.ok (clockBytes c))

/-- CLOCK_STATUS (R104). -/
def execClockStatus (s : State) : Result :=
  portCommand .clockStatus s fun s => (s, Reply.ok (clockBytes s.tmb ++ yesNo s.tmb.unset))

/-! ### The hold second -/

/-- Part 1: one hold counted down by one second (R109). -/
def countHold (h : Hold) : Hold :=
  match h.state with
  | .scheduled => { h with countdown := h.countdown.map (· - 1) }
  | .active | .suspended =>
    if h.code.val = 0 then h
    else { h with remaining := h.remaining.map (· - 1), sinceStart := h.sinceStart.map fun x => satAdd x 1 }

/-- An ACTIVE or SUSPENDED hold whose remaining time has reached 0 (R108). -/
def isExpired (h : Hold) : Bool := h.state != .scheduled && h.remaining == some 0

/-- A SCHEDULED hold whose start countdown has reached 0 (R108). -/
def isDue (h : Hold) : Bool := h.state == .scheduled && h.countdown == some 0

/-- The start countdown of a repeating hold that expires: I - (S mod I), or I when S mod I is 0 (R111). -/
def gridCountdown (intervalMinutes since : Nat) : Nat :=
  intervalMinutes * 60 - since % (intervalMinutes * 60)

/-- The expiry of one hold whose time has run out: retired without a repeat interval (R110), returned to SCHEDULED
with one (R111). -/
def Htm.expire (t : Htm) (i : Fin 48) (h : Hold) : Htm :=
  match h.interval with
  | none => t.retire i
  | some m => t.putHold i (h.waiting (gridCountdown m (h.sinceStart.getD 0)))

/-- Part 2 at one slot. -/
def Htm.expireSlot (t : Htm) (i : Fin 48) : Htm :=
  match t.slots[i].hold with
  | some h => if isExpired h then t.expire i h else t
  | none => t

/-- The start of one hold whose countdown has run out (R112, R113): the record as begun with Ch 0, ACTIVE when it
passes admission, else SUSPENDED with reason NOT_ADMITTED. -/
def State.startHold (s : State) (i : Fin 48) (h : Hold) : Hold :=
  let h1 := { h.begun with charge := 0 }
  if s.admits (some i) h.cls h.mask h.code then h1.activated else h1.suspendedFor .notAdmitted

/-- What the starts of one handling have led to: the state, the masks of the holds started ACTIVE, and whether a start
failed. -/
abbrev Starts := State × List DomainSet × Bool

/-- One start taken into the account of its handling. -/
def Starts.add (acc : Starts) (i : Fin 48) (h : Hold) : Starts :=
  let h1 := acc.1.startHold i h
  (acc.1.withHtm (acc.1.htm.putHold i h1),
    acc.2.1 ++ (if h1.state = .active then [h1.mask] else []),
    acc.2.2 || h1.state = .suspended)

/-- Part 3 at one slot (R112). -/
def startSlot (acc : Starts) (i : Fin 48) : Starts :=
  match acc.1.htm.slots[i].hold with
  | some h => if isDue h then Starts.add acc i h else acc
  | none => acc

/-- The flags of a hold second: HOLD_EXPIRED and HOLD_SUSPENDED, once each (R114). -/
def secondFlags (expired failed : Bool) : List Flag :=
  (if expired then [.holdExpired] else []) ++ (if failed then [.holdSuspended] else [])

/-- Some hold of the table has run out of its time. -/
def Htm.someExpired (t : Htm) : Bool := allSlots.any fun i => (t.slots[i].hold.map isExpired).getD false

/-- HOLD_SECOND: counting, expiry, starts, then one report and the flags (R108 to R114). R26 says of a RENEW, and
R151 of a coalescing renewal by a template, taken before the expiry that the hold does not expire at that second, and
R109 that a remaining time of 1 s expires at the next hold second; after either with code 1 the model follows R109, and
the hold expires (DESIGN CHOICE, log 24). -/
def execHoldSecond (s : State) : Result :=
  arrive .holdSecond s fun s =>
    let counted := s.htm.mapHolds countHold
    let expired := allSlots.foldl Htm.expireSlot counted
    let r := allSlots.foldl startSlot (s.withHtm expired, [], false)
    s.settleTable r.1.htm r.2.1 (secondFlags counted.someExpired r.2.2)

/-! The expiry and the start of a single hold, as the table's rows of their own (log 8): the hold second as it falls on
this one hold, where its count reaches 0; without effect where it does not. -/

/-- HOLD_EXPIRY of the hold in one slot: counted (R109), it has no time left and no repeat interval, and is retired
(R110). -/
def execHoldExpiry (slot : Fin 48) (s : State) : Result :=
  arrive (.holdExpiry slot) s fun s =>
    match (s.htm.slots[slot].hold).map countHold with
    | some h =>
      if isExpired h && h.interval.isNone then s.settleTable (s.htm.expire slot h) [] [.holdExpired] else s
    | none => s

/-- REPEAT_EXPIRY of the hold in one slot: counted, it has no time left, and returns to SCHEDULED on its grid
(R111). -/
def execRepeatExpiry (slot : Fin 48) (s : State) : Result :=
  arrive (.repeatExpiry slot) s fun s =>
    match (s.htm.slots[slot].hold).map countHold with
    | some h =>
      if isExpired h && h.interval.isSome then s.settleTable (s.htm.expire slot h) [] [.holdExpired] else s
    | none => s

/-- APPOINTMENT_START of the hold in one slot: counted, its start countdown is 0, and it starts (R112, R113). -/
def execAppointmentStart (slot : Fin 48) (s : State) : Result :=
  arrive (.appointmentStart slot) s fun s =>
    match (s.htm.slots[slot].hold).map countHold with
    | some h =>
      if isDue h then
        let r := Starts.add (s, [], false) slot h
        s.settleTable r.1.htm r.2.1 (secondFlags false r.2.2)
      else s
    | none => s

end Sys2Proof.Machine
end

