-- ==== Sys2Proof/Machine/Wake.lean ====
section
/-! DEFINITION. The Wake Source Unit (06): pin machines, windows, arming, and the commands SOURCE_CONFIG and
SOURCE_STATUS. -/

namespace Sys2Proof.Machine

/-! ### Pins -/

/-- The pin is active: its level matches its polarity (R121). -/
def Pin.isActive (p : Pin) (high : Bool) : Bool := high == p.activeHigh

/-- The pin becomes active or inactive: the new machine, and whether a wake event is raised (R122). -/
def Pin.levelChange (p : Pin) (active : Bool) : Pin × Bool :=
  match active, p.state with
  | true, .ready =>
    if p.debounce = 0 then ({ p with state := .held, timer := none }, true)
    else ({ p with state := .debouncing, timer := startTimer (ms (10 * p.debounce)) }, false)
  | false, .debouncing => ({ p with state := .ready, timer := none }, false)
  | false, .held => ({ p with state := .ready }, false)
  | true, .debouncing => (p, false)
  | true, .held => (p, false)
  | false, .ready => (p, false)

/-- The levels with the one of pin i replaced. -/
def wakeLevelsAfter (levels : BitVec 8) (i : Fin 8) (high : Bool) : BitVec 8 :=
  if high then levels ||| (1#8 <<< i.val) else levels &&& ~~~ (1#8 <<< i.val)

/-- The source of a pin (R119). -/
def pinSource (i : Fin 8) : Fin 16 := ⟨i.val, by omega⟩

/-- The source of a filter (R119). -/
def filterSource (i : Fin 8) : Fin 16 := ⟨8 + i.val, by omega⟩

/-- A state with the machine of one pin replaced. -/
def State.withPin (s : State) (i : Fin 8) (p : Pin) : State :=
  { s with wsu := { s.wsu with pins := s.wsu.pins.set i p } }

/-- PIN_LEVEL_CHANGE (R121, R122): a change that leaves the pin active, or inactive, is no change. -/
def execPinLevelChange (pin : Fin 8) (high : Bool) (s : State) : Result :=
  if s.held then .next { s with inputs := { s.inputs with wake := wakeLevelsAfter s.inputs.wake pin high } }
  else
    arrive (.pinLevelChange pin high) s fun s =>
      let s1 := { s with inputs := { s.inputs with wake := wakeLevelsAfter s.inputs.wake pin high } }
      if high = s.inputs.wake.getLsbD pin.val then s1
      else
        let r := s.wsu.pins[pin].levelChange (s.wsu.pins[pin].isActive high)
        if r.2 then (s1.withPin pin r.1).hand (.wakeEvent (pinSource pin)) else s1.withPin pin r.1

/-- DEBOUNCE_EXPIRY (R122): a wake event is raised and the machine enters HELD. -/
def execDebounceExpiry (pin : Fin 8) (s : State) : Result :=
  arrive (.debounceExpiry pin) s fun s =>
    if s.wsu.pins[pin].state = .debouncing then
      (s.withPin pin { s.wsu.pins[pin] with state := .held, timer := none }).hand (.wakeEvent (pinSource pin))
    else s

/-! ### Windows (R129 to R131) -/

/-- A clock window is inside (R129). -/
def ClockWindow.inside (w : ClockWindow) (c : Tmb) : Bool :=
  !c.unset && w.days.getLsbD c.day
    && (if w.start < w.stop then decide (w.start ≤ c.minute ∧ c.minute < w.stop)
        else if w.stop < w.start then decide (w.start ≤ c.minute ∨ c.minute < w.stop)
        else false)

/-- A tier window is inside (R130). -/
def TierWindow.inside (w : TierWindow) (effective : Tier) : Bool := w.minTier.rank ≤ effective.rank

/-- The condition a window yields by its area (R131). -/
def areaHolds (outside inside : Bool) : Bool := if outside then !inside else inside

/-- The conditions of the enabled windows of a source (R131). -/
def Source.conditions (x : Source) (c : Tmb) (effective : Tier) : List Bool :=
  (if x.winA.enable then [areaHolds x.winA.outside (x.winA.inside c)] else [])
    ++ (if x.winB.enable then [areaHolds x.winB.outside (x.winB.inside c)] else [])
    ++ (if x.winT.enable then [areaHolds x.winT.outside (x.winT.inside effective)] else [])

/-- An event at the source qualifies (R131). -/
def Source.qualifies (x : Source) (c : Tmb) (effective : Tier) : Bool :=
  let cs := x.conditions c effective
  cs.isEmpty || (if x.logicAnd then cs.all id else cs.any id)

/-! ### Judging an event -/

/-- A state with one source replaced. -/
def State.withSource (s : State) (i : Fin 16) (x : Source) : State :=
  { s with wsu := { s.wsu with sources := s.wsu.sources.set i x } }

/-- The flag of a recorded outcome (R135). -/
def outcomeFlags : WakeOutcome → List Flag
  | .accepted | .coalesced => [.wakeAccepted]
  | .window | .disarmed | .limit | .full => [.wakeRefused]
  | .none => []

/-- The WSU records an outcome and sets its flag (R132, R135). -/
def State.recordOutcome (s : State) (i : Fin 16) (o : WakeOutcome) : State :=
  (s.withSource i { s.wsu.sources[i] with last := o }).raise (outcomeFlags o)

/-- WAKE_EVENT: qualification, then arming; an event that passes both clears ARM_ONCE and is handed over with the
template index as stored (R132 to R134). -/
def execWakeEvent (source : Fin 16) (s : State) : Result :=
  arrive (.wakeEvent source) s fun s =>
    let x := s.wsu.sources[source]
    if x.qualifies s.tmb s.tau.effective = false then s.recordOutcome source .window
    else if x.armOnce = false ∧ x.armAlways = false then s.recordOutcome source .disarmed
    else (s.withSource source { x with armOnce := false }).hand (.handOver source x.template)

/-- WSU_RETURN: the outcome of the application is recorded (R134, R135). -/
def execWsuReturn (source : Fin 16) (outcome : WakeOutcome) (s : State) : Result :=
  arrive (.wsuReturn source outcome) s fun s => s.recordOutcome source outcome

/-! ### SOURCE_CONFIG and SOURCE_STATUS -/

/-- The pin of a source, for sources 0..7. -/
def sourcePin (i : Fin 16) : Option (Fin 8) := if h : i.val < 8 then some ⟨i.val, h⟩ else none

/-- A pin's settings stored: a change of polarity stops the timer and takes the machine to HELD, and to READY when the
pin is inactive under the new polarity (R124). A debounce code above 15 is clamped (R120). -/
def Pin.configured (p : Pin) (activeHigh : Bool) (debounce : Nat) (high : Bool) : Pin :=
  let p1 := { p with activeHigh := activeHigh, debounce := min debounce 15 }
  if activeHigh = p.activeHigh then p1
  else { p1 with state := if p1.isActive high then .held else .ready, timer := none }

/-- The settings of a source that SOURCE_CONFIG stores, where its arguments are accepted (R120). -/
def Source.configured (x : Source) (a : SourceArgs) : Option Source :=
  match boolOf a.armOnce, boolOf a.armAlways, indexOf 16 a.template, boolOf a.logic, clockWindowOf a.winA,
      clockWindowOf a.winB, tierWindowOf a.tierEnable a.tierArea a.minTier with
  | some once, some always, some t, some lg, some wa, some wb, some wt =>
    some { x with armOnce := once, armAlways := always, winA := wa, winB := wb, winT := wt, logicAnd := lg,
                  template := t }
  | _, _, _, _, _, _, _ => none

/-- A clock window as a response carries it. -/
def windowBytes (w : ClockWindow) : List Byte :=
  yesNo w.enable ++ yesNo w.outside ++ beBytes 2 w.start ++ beBytes 2 w.stop ++ byte w.days.toNat

/-- The settings of a source from ARM_ONCE to the tier window, in the order of R200. -/
def sourceBytes (x : Source) : List Byte :=
  yesNo x.armOnce ++ yesNo x.armAlways ++ byte x.template.val ++ yesNo x.logicAnd ++ windowBytes x.winA
    ++ windowBytes x.winB ++ yesNo x.winT.enable ++ yesNo x.winT.outside ++ byte x.winT.minTier.rank

/-- Polarity and debounce code of a pin source; 0 for a filter source, which has neither (R199; log 17). -/
def pinSettingBytes (p : Option Pin) : List Byte :=
  match p with
  | some p => yesNo p.activeHigh ++ byte p.debounce
  | none => [0, 0]

/-- SOURCE_CONFIG (R120, R124). For sources 8..15 polarity and debounce code are neither checked nor stored. -/
def execSourceConfig (args : SourceArgs) (s : State) : Result :=
  portCommand (.sourceConfig args) s fun s =>
    match indexOf 16 args.source with
    | none => (s, Reply.refuse .arg)
    | some i =>
      match s.wsu.sources[i].configured args with
      | none => (s, Reply.refuse .arg)
      | some x =>
        match sourcePin i with
        | none => (s.withSource i x, Reply.ok (pinSettingBytes none ++ sourceBytes x))
        | some n =>
          match boolOf args.polarity with
          | none => (s, Reply.refuse .arg)
          | some pol =>
            let p := s.wsu.pins[n].configured pol args.debounce.toNat (s.inputs.wake.getLsbD n.val)
            ((s.withSource i x).withPin n p, Reply.ok (pinSettingBytes (some p) ++ sourceBytes x))

/-- The pin part of SOURCE_STATUS (R136; log 17). -/
def pinStatusBytes (s : State) (n : Option (Fin 8)) : List Byte :=
  match n with
  | some n =>
    let p := s.wsu.pins[n]
    optionalBytes 1 (some (if p.activeHigh then 1 else 0)) ++ optionalBytes 1 (some p.debounce) ++ byte p.state.number
      ++ yesNo (p.isActive (s.inputs.wake.getLsbD n.val)) ++ yesNo p.timer.isSome
  | none => optionalBytes 1 none ++ optionalBytes 1 none

/-- SOURCE_STATUS (R136, R200): settings, pin, last outcome, and the present judgement of the windows. -/
def execSourceStatus (source : Byte) (s : State) : Result :=
  portCommand (.sourceStatus source) s fun s =>
    (s, match indexOf 16 source with
      | none => Reply.refuse .arg
      | some i =>
        let x := s.wsu.sources[i]
        Reply.ok (sourceBytes x ++ pinStatusBytes s (sourcePin i) ++ byte (outcomeNumber x.last)
          ++ yesNo (x.winA.enable && areaHolds x.winA.outside (x.winA.inside s.tmb))
          ++ yesNo (x.winB.enable && areaHolds x.winB.outside (x.winB.inside s.tmb))
          ++ yesNo (x.winT.enable && areaHolds x.winT.outside (x.winT.inside s.tau.effective))
          ++ yesNo (x.qualifies s.tmb s.tau.effective)))

end Sys2Proof.Machine
end

