-- ==== Sys2Proof/Machine/Dispatch.lean ====
section
/-! DEFINITION. The dispatch of every command to its meaning, in the order of spec/opcode_table.json. -/

namespace Sys2Proof.Machine

def exec (i : Instr) (s : State) : Host.Outcome State Fault Refusal :=
  match i with
  | .powerOnReset => Sys2Proof.Machine.execPowerOnReset s
  | .frameBegin => Sys2Proof.Machine.execFrameBegin s
  | .frameRefused bytes => Sys2Proof.Machine.execFrameRefused bytes s
  | .nop => Sys2Proof.Machine.execNop s
  | .request owner mask cls code delay interval cap => Sys2Proof.Machine.execRequest owner mask cls code delay interval cap s
  | .renew handle code => Sys2Proof.Machine.execRenew handle code s
  | .release handle => Sys2Proof.Machine.execRelease handle s
  | .query handle => Sys2Proof.Machine.execQuery handle s
  | .find selector value => Sys2Proof.Machine.execFind selector value s
  | .purge owner => Sys2Proof.Machine.execPurge owner s
  | .domainConfig domain enable runEnable draw settle runDown => Sys2Proof.Machine.execDomainConfig domain enable runEnable draw settle runDown s
  | .domainStatus domain => Sys2Proof.Machine.execDomainStatus domain s
  | .clearFault domain => Sys2Proof.Machine.execClearFault domain s
  | .master setting => Sys2Proof.Machine.execMaster setting s
  | .budgetConfig allowance q k tg ta tr => Sys2Proof.Machine.execBudgetConfig allowance q k tg ta tr s
  | .budgetStatus => Sys2Proof.Machine.execBudgetStatus s
  | .credit amount => Sys2Proof.Machine.execCredit amount s
  | .classConfig cls floor reserve => Sys2Proof.Machine.execClassConfig cls floor reserve s
  | .limits network control source => Sys2Proof.Machine.execLimits network control source s
  | .sourceConfig args => Sys2Proof.Machine.execSourceConfig args s
  | .sourceStatus source => Sys2Proof.Machine.execSourceStatus source s
  | .filterConfig filter enable ident mask dataFlag index value valueMask => Sys2Proof.Machine.execFilterConfig filter enable ident mask dataFlag index value valueMask s
  | .templateConfig template mask cls code cap coalesce => Sys2Proof.Machine.execTemplateConfig template mask cls code cap coalesce s
  | .setClock day minute second => Sys2Proof.Machine.execSetClock day minute second s
  | .clockStatus => Sys2Proof.Machine.execClockStatus s
  | .voltageConfig vlow vcrit => Sys2Proof.Machine.execVoltageConfig vlow vcrit s
  | .currentConfig enable => Sys2Proof.Machine.execCurrentConfig enable s
  | .calibrate => Sys2Proof.Machine.execCalibrate s
  | .supplyStatus => Sys2Proof.Machine.execSupplyStatus s
  | .modeConfig delay => Sys2Proof.Machine.execModeConfig delay s
  | .parkNow => Sys2Proof.Machine.execParkNow s
  | .modeStatus => Sys2Proof.Machine.execModeStatus s
  | .events keep => Sys2Proof.Machine.execEvents keep s
  | .eventEnable levels code => Sys2Proof.Machine.execEventEnable levels code s
  | .serviceConfig enable service answer => Sys2Proof.Machine.execServiceConfig enable service answer s
  | .clear => Sys2Proof.Machine.execClear s
  | .clearFlags => Sys2Proof.Machine.execClearFlags s
  | .clearService => Sys2Proof.Machine.execClearService s
  | .blockResult serial status payload => Sys2Proof.Machine.execBlockResult serial status payload s
  | .portReset => Sys2Proof.Machine.execPortReset s
  | .portLive => Sys2Proof.Machine.execPortLive s
  | .canFrameReceived frame => Sys2Proof.Machine.execCanFrameReceived frame s
  | .canFrameError => Sys2Proof.Machine.execCanFrameError s
  | .networkRequest node mask cls code tag => Sys2Proof.Machine.execNetworkRequest node mask cls code tag s
  | .networkRenew node handle code => Sys2Proof.Machine.execNetworkRenew node handle code s
  | .networkRelease node handle => Sys2Proof.Machine.execNetworkRelease node handle s
  | .networkQuery node handle => Sys2Proof.Machine.execNetworkQuery node handle s
  | .htmReturn result => Sys2Proof.Machine.execHtmReturn result s
  | .answerAttemptStart => Sys2Proof.Machine.execAnswerAttemptStart s
  | .answerAttemptEnd how => Sys2Proof.Machine.execAnswerAttemptEnd how s
  | .pinLevelChange pin high => Sys2Proof.Machine.execPinLevelChange pin high s
  | .debounceExpiry pin => Sys2Proof.Machine.execDebounceExpiry pin s
  | .wakeEvent source => Sys2Proof.Machine.execWakeEvent source s
  | .handOver source template => Sys2Proof.Machine.execHandOver source template s
  | .application source template fields => Sys2Proof.Machine.execApplication source template fields s
  | .tpeReturn source outcome => Sys2Proof.Machine.execTpeReturn source outcome s
  | .wsuReturn source outcome => Sys2Proof.Machine.execWsuReturn source outcome s
  | .oneSecondExpiry vbat shunt => Sys2Proof.Machine.execOneSecondExpiry vbat shunt s
  | .holdSecond => Sys2Proof.Machine.execHoldSecond s
  | .holdExpiry slot => Sys2Proof.Machine.execHoldExpiry slot s
  | .repeatExpiry slot => Sys2Proof.Machine.execRepeatExpiry slot s
  | .appointmentStart slot => Sys2Proof.Machine.execAppointmentStart slot s
  | .accountingSecond => Sys2Proof.Machine.execAccountingSecond s
  | .attribution shares => Sys2Proof.Machine.execAttribution shares s
  | .voltageConversion vbat shunt => Sys2Proof.Machine.execVoltageConversion vbat shunt s
  | .calibrationCompletion shunt => Sys2Proof.Machine.execCalibrationCompletion shunt s
  | .calibrationAbort => Sys2Proof.Machine.execCalibrationAbort s
  | .budgetTierReport tier parkEntry => Sys2Proof.Machine.execBudgetTierReport tier parkEntry s
  | .voltageCeilingReport ceiling => Sys2Proof.Machine.execVoltageCeilingReport ceiling s
  | .modeReport mode => Sys2Proof.Machine.execModeReport mode s
  | .holdDemandReport demand entered => Sys2Proof.Machine.execHoldDemandReport demand entered s
  | .runDemandReport asserted => Sys2Proof.Machine.execRunDemandReport asserted s
  | .faultReport domain trip => Sys2Proof.Machine.execFaultReport domain trip s
  | .settleExpiry domain => Sys2Proof.Machine.execSettleExpiry domain s
  | .stabilityExpiry domain => Sys2Proof.Machine.execStabilityExpiry domain s
  | .runDownExpiry domain => Sys2Proof.Machine.execRunDownExpiry domain s
  | .backoffExpiry domain => Sys2Proof.Machine.execBackoffExpiry domain s
  | .ignChange high => Sys2Proof.Machine.execIgnChange high s
  | .ignDebounceExpiry => Sys2Proof.Machine.execIgnDebounceExpiry s
  | .parkDelayExpiry => Sys2Proof.Machine.execParkDelayExpiry s
  | .parkEntryRefill => Sys2Proof.Machine.execParkEntryRefill s
  | .modeRecord mode => Sys2Proof.Machine.execModeRecord mode s
  | .flagSetting flags => Sys2Proof.Machine.execFlagSetting flags s
  | .owner47Request code => Sys2Proof.Machine.execOwner47Request code s
  | .supplyBelowResetThreshold => Sys2Proof.Machine.execSupplyBelowResetThreshold s

end Sys2Proof.Machine
end

