-- ==== Sys2Proof/Machine/Step.lean ====
section
/-! DEFINITION. One step of the block: the command at the front of the queue, and what the part does of its own accord
when none waits. -/

namespace Sys2Proof.Machine

/-- What happens when no command waits: the oldest arrival in flight is taken, else the oldest command handed out, else
an expiry that is due, else one crystal period passes (log 2, log 3). -/
def ownStep (s : State) : Host.Outcome State Fault Refusal :=
  match s.nextOwn with
  | some c => exec c s
  | none => .next s.crystalPeriod

/-- One step: the command at the front of the queue is taken with the queue's rest; on an empty queue the part goes on
by itself. -/
def step (s : State) : Host.Outcome State Fault Refusal :=
  match s.pending with
  | c :: rest => exec c { s with pending := rest }
  | [] => ownStep s

/-- The command that a word spells put at the front of the queue; unchanged where the word spells none. -/
def State.withFetchWord (s : State) (nbits w : Nat) : State :=
  match decodeTableWord nbits w with
  | some c => { s with pending := c :: s.pending }
  | none => s

end Sys2Proof.Machine
end

