-- ==== Sys2Proof/Safety.lean ====
section
/-! DEFINITION. What a sound state of the MN2410 is, block by block: the laws that the manual states of its own state
and that every step keeps. Each law is stated alone, so that it can be kept alone. -/

namespace Sys2Proof.Machine

/-! ### The hold table (01, R68) -/

/-- The timers of a hold follow its state (R2, R3): SCHEDULED has a start countdown in 1..604,800 and nothing else;
ACTIVE and SUSPENDED have a remaining time in 1..86,400 exactly when the code is not 0, and a since-start exactly when
the hold repeats. -/
def timersSound (h : Hold) : Prop :=
  match h.state with
  | .scheduled =>
    (∃ n, h.countdown = some n ∧ 1 ≤ n ∧ n ≤ 604800) ∧ h.remaining = none ∧ h.sinceStart = none
  | .active | .suspended =>
    h.countdown = none
      ∧ (h.code.val = 0 → h.remaining = none)
      ∧ (h.code.val ≠ 0 → ∃ n, h.remaining = some n ∧ 1 ≤ n ∧ n ≤ 86400)
      ∧ h.sinceStart.isSome = h.interval.isSome
      ∧ ∀ n, h.sinceStart = some n → n ≤ Config.counterMax

/-- What the owner's group allows a hold to carry (R2, R4): only a control owner's hold is ever SCHEDULED (R4, R141). -/
def ownerFormSound (h : Hold) : Prop :=
  (h.state = .scheduled → 32 ≤ h.owner.val ∧ h.owner.val ≤ 46)
    ∧ (h.owner.val ≤ 31 → h.interval = none ∧ h.cap = none)
    ∧ (h.owner.val = 47 → h.mask = 1 ∧ h.cls.val = 6 ∧ h.interval = none ∧ h.cap = none)
    ∧ (48 ≤ h.owner.val → h.interval = none)
    ∧ (h.template.isSome ↔ 48 ≤ h.owner.val)

/-- A sound hold record (R2 to R4, R68). -/
structure holdSound (h : Hold) : Prop where
  mask : h.mask ≠ 0
  timers : timersSound h
  reason : h.reason.isSome ↔ h.state = .suspended
  interval : ∀ m, h.interval = some m → 1 ≤ m ∧ m ≤ 10080 ∧ h.code.val ≠ 0
  cap : ∀ c, h.cap = some c → 1 ≤ c ∧ c ≤ Config.counterMax ∧ h.charge < c
  charge : h.charge ≤ Config.counterMax
  owner : ownerFormSound h

/-- An application that carries the fields of a template (R141, R144). -/
def carriesTemplate : Instr → Prop
  | .application _ _ t => t.wf = true
  | _ => True

/-- The hold table is sound: every record is, owner 47 has at most one hold (R8), the templates that make holds are
well formed (R141), and so are those in the applications that wait. -/
structure tableSound (s : State) : Prop where
  holds : ∀ i : Fin 48, ∀ h, s.htm.slots[i].hold = some h → holdSound h
  host : s.htm.ownerCount 47 ≤ 1
  limits : (1 ≤ s.htm.netLimit ∧ s.htm.netLimit ≤ 48) ∧ (1 ≤ s.htm.ctlLimit ∧ s.htm.ctlLimit ≤ 48)
    ∧ (1 ≤ s.htm.srcLimit ∧ s.htm.srcLimit ≤ 48)
  templates : ∀ i : Fin 16, s.tpe.templates[i].wf = true
  waiting : ∀ c, c ∈ s.pending ∨ c ∈ s.handed ∨ (∃ n, (n, c) ∈ s.ctp.outstanding) → carriesTemplate c

/-! ### Tiers (02) -/

/-- The law of R30 and R42 with the forming of R33: the effective tier is the one the three records give, and no ACTIVE
hold belongs to a class whose floor tier is above it. -/
structure tierSound (s : State) : Prop where
  formed : s.tau.effective = s.tau.formed
  floors : ∀ i : Fin 48, ∀ h, s.htm.slots[i].hold = some h → h.state = .active → s.tau.floorOk h.cls = true

/-! ### The budget (03) -/

/-- The budget's bounds (R51 to R56, R65) and its derived quantities (R53). -/
structure budgetSound (s : State) : Prop where
  allowance : 1 ≤ s.cbu.allowance ∧ s.cbu.allowance ≤ 65535
  remaining : s.cbu.remaining ≤ s.cbu.allowanceCharge
  fraction : s.cbu.fraction = fractionOf s.cbu.remaining s.cbu.allowanceCharge
  tier : s.cbu.tier = tierOfFraction s.cbu.fraction s.cbu.tg s.cbu.ta s.cbu.tr
  settings : s.cbu.quiescent ≤ 500 ∧ s.cbu.blend ≤ 32
  thresholds : 1 ≤ s.cbu.tr ∧ s.cbu.tr < s.cbu.ta ∧ s.cbu.ta < s.cbu.tg ∧ s.cbu.tg ≤ 256
  counters : s.cbu.parkSeconds ≤ Config.counterMax ∧ s.cbu.debited ≤ Config.counterMax

/-! ### Domains (04) -/

/-- The timer and the attempt count that belong to the state of a domain (04, section 4.2; R86, R90, R92). -/
def machineSound (d : Domain) : Prop :=
  match d.state with
  | .off => d.timer = none ∧ d.attempts ≤ 3
  | .waking => d.timer.isSome = true ∧ d.attempts ≤ 3
  | .on => (d.timer.isSome = true ↔ 1 ≤ d.attempts) ∧ d.attempts ≤ 3
  | .draining => d.timer.isSome = true ∧ d.attempts ≤ 3
  | .faulted => d.timer.isSome = true ∧ 1 ≤ d.attempts ∧ d.attempts ≤ 3
  | .latched => d.timer = none ∧ d.attempts = 4

/-- Settings of a domain within their clamps (R76). -/
def settingsSound (d : Domain) : Prop :=
  d.draw ≤ 2000 ∧ 1 ≤ d.settle ∧ d.settle ≤ 250 ∧ d.runDown ≤ 120

/-- The gate law of R81, with the enable of D0 (R76) and the machine of each domain. A FAULTED domain is enabled too
(R90). No gate stays closed on an active trip input (R86), nor while the part is held in power-on reset (R154). -/
structure domainsSound (s : State) : Prop where
  gate : ∀ i : Fin 12, s.dsc.domains[i].state.gateClosed = true → s.dsc.usable i = true
  trip : ∀ i : Fin 12, s.dsc.domains[i].state.gateClosed = true →
    s.held = false ∧ s.inputs.trips.getLsbD i.val = false
  faulted : ∀ i : Fin 12, s.dsc.domains[i].state = .faulted → s.dsc.domains[i].enable = true
  host : s.dsc.domains[(0 : Fin 12)].enable = true
  machine : ∀ i : Fin 12, machineSound s.dsc.domains[i]
  settings : ∀ i : Fin 12, settingsSound s.dsc.domains[i]

/-! ### Clock, supply and mode (05, 08) -/

/-- The ranges of phase and clock (05). -/
def clockSound (s : State) : Prop :=
  s.tmb.phase < Config.periodsPerSecond ∧ s.tmb.second ≤ 59 ∧ s.tmb.minute ≤ 1439 ∧ s.tmb.day ≤ 6

/-- The supply monitor's ranges (08), the band of R157, the short of R159, and when M is invalid (R158). -/
structure supplySound (s : State) : Prop where
  code : ∀ v, s.spm.code = some v → v ≤ 255
  thresholds : s.spm.vcrit + 3 ≤ s.spm.vlow ∧ s.spm.vlow ≤ 255
  ceiling : s.spm.ceiling ≠ .amber
  lastRaw : ∀ x, s.spm.lastRaw = some x → -1024 ≤ x ∧ x ≤ 16383
  offset : -64 ≤ s.spm.offset ∧ s.spm.offset ≤ 63
  measured : ∀ m, s.spm.measured = some m → m ≤ 16383 ∧ s.spm.monitor = true ∧ s.spm.cal ≠ .running
  samples : s.spm.calCount ≤ 4 ∧ (s.spm.cal = .running → s.spm.calCount ≤ 3)
  shorted : s.spm.shorted = true ↔ s.spm.cal = .running

/-- The mode follows the debounced ignition, and the park delay timer runs exactly in PARK_PENDING (R163, R164). -/
structure modeSound (s : State) : Prop where
  ignition : s.mdc.mode = .run ↔ s.mdc.ign = true
  delay : s.mdc.parkTimer.isSome = true ↔ s.mdc.mode = .parkPending
  range : s.mdc.parkDelay ≤ 255
  debounce : s.held = false → (s.mdc.ignTimer.isSome = true ↔ s.inputs.ign ≠ s.mdc.ign)

/-! ### Wake pins (06) -/

/-- The debounce timer runs exactly in DEBOUNCING, and a pin rests in READY exactly while it is inactive (R122,
R124). -/
structure pinsSound (s : State) : Prop where
  timer : ∀ i : Fin 8, s.wsu.pins[i].timer.isSome = true ↔ s.wsu.pins[i].state = .debouncing
  code : ∀ i : Fin 8, s.wsu.pins[i].debounce ≤ 15
  ready : s.held = false → ∀ i : Fin 8,
    (s.wsu.pins[i].state = .ready ↔ s.wsu.pins[i].isActive (s.inputs.wake.getLsbD i.val) = false)

/-! ### The hold service (09) -/

/-- The service queue and the answer buffer (R171 to R174, R178). -/
structure serviceSound (s : State) : Prop where
  identifiers : s.bnl.serviceId ≠ s.bnl.answerId
  queue : s.bnl.queue.length ≤ 2
  frames : ∀ f, f ∈ s.bnl.queue → f.length = 8
  drained : s.bnl.buffer = .empty → s.bnl.queue = []
  answer : s.bnl.answer.isSome = true ↔ (s.bnl.buffer = .full ∨ s.bnl.buffer = .sending)
  answerBytes : ∀ a, s.bnl.answer = some a → a.length = 8
  sending : s.bnl.sendingId.isSome = true ↔ s.bnl.buffer = .sending
  cancel : s.bnl.cancel = true → s.bnl.buffer = .reserved ∨ s.bnl.buffer = .sending
  disabled : s.bnl.enable = false →
    s.bnl.queue = [] ∧ (s.bnl.buffer = .empty ∨ s.bnl.cancel = true)

/-! ### Control Port and events (10, 11) -/

/-- A command is awaited exactly while the response buffer is PENDING (R184, R185, R188); a frame is in progress only on
a live port with CSN low, and has its response in shift (R181, R186, R188); and the serial numbers in use have been
given out (log 7). -/
structure portSound (s : State) : Prop where
  awaited : s.ctp.awaited.isSome = true ↔ s.ctp.buffer = .pending
  frame : s.ctp.frame.isSome = true →
    s.held = false ∧ s.ctp.live = true ∧ s.inputs.csn = false ∧ s.ctp.inShift.isSome = true
  dead : s.ctp.live = false → s.ctp.buffer = .empty
  serial : ∀ n, s.ctp.awaited = some n → n < s.ctp.serial
  outstanding : ∀ e, e ∈ s.ctp.outstanding → e.1 < s.ctp.serial

/-- ATTN as R194 forms it. -/
def attnSound (s : State) : Prop := s.evu.attnLow = attnFormed s.evu.pending s.evu.levels

/-! ### Taking a command -/

/-- The part takes a Control Port command: it is not held in reset, and the command is taken under the serial number
`n`, in the state `s1` (R181, R184). -/
def Takes (c : Instr) (s : State) (n : Nat) (s1 : State) : Prop := s.held = false ∧ portTake c s = some (n, s1)

/-- A block takes its part of a CLEAR, and handles it in the state `s1` (R184, R191). -/
def TakesPart (c : Instr) (s s1 : State) : Prop := s.held = false ∧ partTake c s = some s1

/-- A block takes a report: the part is not held in reset, and no earlier report of the same source to the same block is
in flight (R32, R79). -/
abbrev TakesReport (c : Instr) (s : State) : Prop := s.held = false ∧ s.reportIsNext c = true

/-- Only the named parts of `t` differ from `s`: the hold table and what is handed over. -/
def onlyTable (s t : State) : Prop := t = { s with htm := t.htm, handed := t.handed }

/-- Only the domains and what is handed over differ. -/
def onlyDomains (s t : State) : Prop := t = { s with dsc := t.dsc, handed := t.handed }

/-- The masks of the holds that were SUSPENDED in one table and are ACTIVE in another, in slot order. -/
def resumedMasks (before after : Htm) : List DomainSet :=
  (List.finRange 48).filterMap fun i =>
    match before.slots[i].hold, after.slots[i].hold with
    | some h, some g => if h.state = .suspended ∧ g.state = .active then some h.mask else none
    | _, _ => none

/-- How one domain acts on a change of its demanded status (the table of R79, with R82, R84 and R85): `d'` is the
domain after a handling that leaves it `wanted`. -/
def actsOnDemand (d d' : Domain) (wanted usable : Bool) : Prop :=
  (wanted = d.demanded → d' = d)
    ∧ (wanted = true → d.demanded = false →
        (d.state = .off → usable = true →
          d' = { d with demanded := true, state := .waking, timer := some (ms d.settle) })
        ∧ (d.state = .off → usable = false → d' = { d with demanded := true })
        ∧ (d.state = .draining →
            d' = { d with demanded := true, state := .on,
                          timer := if d.attempts = 0 then none else some (seconds 60) })
        ∧ (d.state = .waking ∨ d.state = .on ∨ d.state = .faulted ∨ d.state = .latched →
            d' = { d with demanded := true }))
    ∧ (wanted = false → d.demanded = true →
        (d.state = .on → 0 < d.runDown →
          d' = { d with demanded := false, state := .draining, timer := some (seconds d.runDown) })
        ∧ (d.state = .on → d.runDown = 0 →
            d' = { d with demanded := false, state := .off, timer := none, attempts := 0 })
        ∧ (d.state ≠ .on → d' = { d with demanded := false }))

/-! ### Who may move what (00 "Block overview") -/

/-- A block's state is the same in both. -/
def Block.sameIn (b : Block) (s t : State) : Prop :=
  match b with
  | .htm => t.htm = s.htm
  | .tau => t.tau = s.tau
  | .cbu => t.cbu = s.cbu
  | .dsc => t.dsc = s.dsc
  | .tmb => t.tmb = s.tmb
  | .wsu => t.wsu = s.wsu
  | .tpe => t.tpe = s.tpe
  | .spm => t.spm = s.spm
  | .mdc => t.mdc = s.mdc
  | .bnl => t.bnl = s.bnl
  | .ctp => t.ctp = s.ctp
  | .evu => t.evu = s.evu

end Sys2Proof.Machine

namespace Sys2Proof

/-- The blocks whose state the handling of a command may change. A command that the CTP has handed out, or whose frame
ends with it, changes the CTP as well as the block that owns it. -/
def Instr.moves : Instr → List Machine.Block
  | .powerOnReset | .supplyBelowResetThreshold =>
    [.htm, .tau, .cbu, .dsc, .tmb, .wsu, .tpe, .spm, .mdc, .bnl, .ctp, .evu]
  | .frameBegin | .frameRefused _ | .nop | .blockResult .. | .portReset | .portLive => [.ctp]
  | .request .. | .renew .. | .release _ | .purge _ | .limits .. | .clear => [.ctp, .htm]
  | .query _ | .find .. | .domainStatus _ | .budgetStatus | .sourceStatus _ | .clockStatus | .supplyStatus
  | .modeStatus => [.ctp]
  | .domainConfig .. | .clearFault _ | .master _ => [.ctp, .dsc]
  | .budgetConfig .. | .credit _ => [.ctp, .cbu]
  | .classConfig .. => [.ctp, .tau, .htm]
  | .sourceConfig _ => [.ctp, .wsu]
  | .filterConfig .. | .serviceConfig .. => [.ctp, .bnl]
  | .templateConfig .. => [.ctp, .tpe]
  | .setClock .. => [.ctp, .tmb]
  | .voltageConfig .. | .currentConfig _ | .calibrate => [.ctp, .spm]
  | .modeConfig _ | .parkNow => [.ctp, .mdc]
  | .events _ | .eventEnable .. => [.ctp, .evu]
  | .clearFlags => [.ctp, .evu]
  | .flagSetting _ => [.evu]
  | .clearService => [.ctp, .bnl]
  | .canFrameReceived _ | .canFrameError | .htmReturn _ | .answerAttemptStart
  | .answerAttemptEnd _ => [.bnl]
  | .networkRequest .. | .networkRenew .. | .networkRelease .. | .application .. | .holdSecond | .holdExpiry _
  | .repeatExpiry _ | .appointmentStart _ | .attribution _ | .owner47Request _ => [.htm]
  | .networkQuery .. | .handOver .. | .tpeReturn .. => []
  | .pinLevelChange .. | .debounceExpiry _ | .wakeEvent _ | .wsuReturn .. => [.wsu]
  | .oneSecondExpiry .. => [.tmb]
  | .accountingSecond | .parkEntryRefill | .modeRecord _ => [.cbu]
  | .calibrationAbort => [.ctp, .spm]
  | .voltageConversion .. | .calibrationCompletion _ => [.spm]
  | .budgetTierReport .. | .voltageCeilingReport _ | .modeReport _ => [.tau, .htm]
  | .holdDemandReport .. | .runDemandReport _ | .faultReport .. | .settleExpiry _ | .stabilityExpiry _
  | .runDownExpiry _ | .backoffExpiry _ => [.dsc]
  | .ignChange _ | .ignDebounceExpiry | .parkDelayExpiry => [.mdc]

/-- The commands that report a level of a wake pin, a trip input or IGN; no other command touches these levels. -/
def Instr.tracksInput : Instr → Bool
  | .pinLevelChange .. | .faultReport .. | .ignChange _ => true
  | _ => false

/-- The commands that carry an edge of CSN: the beginning of a frame, its end, and the commands of the Control Port, whose
frame may end with them (log 5). CLEAR's parts are handed out without one. -/
def Instr.movesCsn (c : Instr) : Bool :=
  match c with
  | .frameBegin | .frameRefused _ | .nop => true
  | .clearFlags | .clearService | .calibrationAbort => false
  | _ => c.portBlock.isSome

end Sys2Proof
end

