-- ==== Sys2Proof/Certificates/Slice0/Obligations.lean ====
section
/-! DEFINITION. The statements for the provers, from the numbered rules of spec/. Where a statement writes out the
arrivals that one step hands over, their order is the model's choice (log 18); how a Control Port command is taken at
its block (`Takes`) is log 5; a report is taken in the order of its source (`TakesReport`, R32, R79; log 23). -/

open Sys2Proof Sys2Proof.Machine

/-! ### The step -/

/-- A step takes the command at the front of the queue and runs `exec` on it with the queue's rest (log 1). -/
def Obligations.StepTakesTheFrontCommand : Prop :=
  ∀ (c : Instr) (rest : List Instr) (s : State),
    step { s with pending := c :: rest } = exec c { s with pending := rest }

/-- With no command waiting: the oldest arrival in flight, else the oldest command that the CTP has handed out, else an
expiry that is due, else one crystal period; in power-on reset, nothing. An expiry is due exactly where the timer of a
domain, a pin, the ignition debounce or the park delay stands at 0 in the state it belongs to (R92, R122, R163, R164),
taken in this order. A crystal period of 125 timer units moves the timers, the phase and nothing else; a millisecond
is 4,096 units. What is handed over goes behind what is in flight. The model's choice (log 2, log 3); the readings that
the conversions of such a second find are free values (log 10). -/
def Obligations.IdleStepGoesOnByItself : Prop :=
  ∀ s : State, s.pending = [] →
    (s.held = true → step s = .next s)
    ∧ (s.held = false → ∀ c rest, s.handed = c :: rest → step s = exec c s)
    ∧ (s.held = false → s.handed = [] → ∀ n c rest, s.ctp.outstanding = (n, c) :: rest → step s = exec c s)
    ∧ (s.held = false → s.handed = [] → s.ctp.outstanding = [] → ∀ c, s.dueExpiry = some c → step s = exec c s)
    ∧ (s.held = false → s.handed = [] → s.ctp.outstanding = [] → s.dueExpiry = none →
        ∃ t, step s = .next t
          ∧ t = { s with
              tmb := { s.tmb with phase := t.tmb.phase }
              dsc := { s.dsc with domains := t.dsc.domains }
              wsu := { s.wsu with pins := t.wsu.pins }
              mdc := { s.mdc with
                ignTimer := s.mdc.ignTimer.map (· - 125), parkTimer := s.mdc.parkTimer.map (· - 125) }
              handed := t.handed, readings := t.readings }
          ∧ (s.tmb.phase + 1 < 32768 →
              t.tmb.phase = s.tmb.phase + 1 ∧ t.handed = [] ∧ t.readings = s.readings)
          ∧ (32768 ≤ s.tmb.phase + 1 → t.tmb.phase = 0 ∧ t.readings = s.readings + 1
              ∧ t.handed = [.oneSecondExpiry (Config.vsenseReading s.readings) (Config.shuntReading s.readings)])
          ∧ (∀ i : Fin 12, t.dsc.domains[i] =
              { s.dsc.domains[i] with timer := s.dsc.domains[i].timer.map (· - 125) })
          ∧ (∀ i : Fin 8, t.wsu.pins[i] = { s.wsu.pins[i] with timer := s.wsu.pins[i].timer.map (· - 125) }))
    ∧ (let domains := (List.finRange 12).filterMap fun i =>
        match s.dsc.domains[i].timer, s.dsc.domains[i].state with
        | some 0, .waking => some (Instr.settleExpiry i)
        | some 0, .on => some (.stabilityExpiry i)
        | some 0, .draining => some (.runDownExpiry i)
        | some 0, .faulted => some (.backoffExpiry i)
        | _, _ => none
       let pins := (List.finRange 8).filterMap fun i =>
        match s.wsu.pins[i].timer, s.wsu.pins[i].state with
        | some 0, .debouncing => some (Instr.debounceExpiry i)
        | _, _ => none
       s.dueExpiry = (domains ++ pins ++ (if s.mdc.ignTimer = some 0 then [Instr.ignDebounceExpiry] else [])
         ++ (if s.mdc.parkTimer = some 0 ∧ s.mdc.mode = .parkPending then [Instr.parkDelayExpiry] else [])).head?)
    ∧ (∀ n, ms n = 4096 * n ∧ seconds n = 4096000 * n)
    ∧ (∀ c, s.hand c = { s with handed := s.handed ++ [c] } ∧ s.take c = { s with handed := s.handed.erase c })

/-- No command stops the part: bad input is refused with a status, clamped or ignored. And each block owns its state: a
command changes only the blocks listed for it, never the queue of waiting commands, and the levels of the input pins
only where it reports one; CSN moves with the frames alone, the marks of the CAL_ENDED in flight (log 14) with the
commands that hand one over or take one, and the count of free choices (log 26) with CALIBRATION_ABORT. -/
def Obligations.EveryCommandMovesOnlyItsBlocks : Prop :=
  (∀ (c : Instr) (s : State), ∃ t, exec c s = .next t)
  ∧ (∀ (c : Instr) (s t : State), exec c s = .next t →
    (∀ b, b ∉ c.moves → b.sameIn s t)
    ∧ t.pending = s.pending ∧ t.readings = s.readings
    ∧ (c ≠ .powerOnReset → c ≠ .supplyBelowResetThreshold → c ≠ .flagSetting 0x8000 → c ≠ .clearFlags →
        c ≠ .calibrationAbort → t.endedByClear = s.endedByClear)
    ∧ (c ≠ .calibrationAbort → t.choices = s.choices)
    ∧ (c.tracksInput = false → t.inputs = { s.inputs with csn := t.inputs.csn })
    ∧ (c.movesCsn = false → t.inputs.csn = s.inputs.csn)
    ∧ (c ≠ .powerOnReset → c ≠ .supplyBelowResetThreshold → t.held = s.held))

/-! ### Frames of the Control Port -/

/-- Decoding the frame that encodes a command gives the command back, whatever bytes follow it; and a frame that passes
is the encoding of the command it carries, followed by ignored bytes (R182, R183, R200). -/
def Obligations.FramesAndCommandsCorrespond : Prop :=
  (∀ (c : Instr) (bytes padding : List Byte), encodeFrame c = some bytes →
    judgeFrame (bytes ++ padding) = .command c)
  ∧ (∀ (c : Instr) (bytes : List Byte), judgeFrame bytes = .command c →
    ∃ frame rest, encodeFrame c = some frame ∧ bytes = frame ++ rest)

/-- The four steps of R184 in their order, with the checksum of R183 and the completeness of R182. At the end of a frame,
with CSN high again, a refused one prepares its status; NOP prepares OK at once (R190); any other command is handed out,
awaited under a new serial number (log 7), with the buffer PENDING. CLEAR hands three further parts out (R191). Where CSN
was high and no frame was begun, the frame's falling edge lies in the step too (log 5); on a dead port, and where CSN was
low when the port became live, no frame is taken (R181, R188). -/
def Obligations.FramesAreJudgedAndHandedOut : Prop :=
  (∀ bytes : List Byte,
    (bytes.length < 2 → judgeFrame bytes = .refused .framing)
    ∧ ∀ code len rest, bytes.take 128 = code :: len :: rest →
      (124 < len.toNat ∨ rest.length < len.toNat + 1 → judgeFrame bytes = .refused .framing)
      ∧ (len.toNat ≤ 124 → len.toNat + 1 ≤ rest.length →
          (((code :: len :: rest.take (len.toNat + 1)).map (·.toNat)).sum % 256 ≠ 0 →
            judgeFrame bytes = .refused .check)
          ∧ (((code :: len :: rest.take (len.toNat + 1)).map (·.toNat)).sum % 256 = 0 →
              (commandSet code = none → judgeFrame bytes = .refused .unknown)
              ∧ ∀ L read, commandSet code = some (L, read) →
                (len.toNat ≠ L → judgeFrame bytes = .refused .arg)
                ∧ (len.toNat = L → judgeFrame bytes = .command (read (rest.take L))))))
  ∧ (∀ (s : State) (sofar bytes : List Byte), s.held = false → s.ctp.live = true → s.ctp.frame = some sofar →
    let ended := fun (c : Instr) (p : Ctp) =>
      Host.Outcome.next (φ := Fault) (ρ := Refusal)
        { s.take c with ctp := { p with frame := none }, inputs := { s.inputs with csn := true } }
    (∀ st, judgeFrame (sofar ++ bytes) = .refused st →
      exec (.frameRefused bytes) s = ended (.frameRefused bytes)
        { s.ctp with buffer := .ready st [], awaited := none })
    ∧ (judgeFrame (sofar ++ bytes) = .command .nop →
      exec (.frameRefused bytes) s = ended (.frameRefused bytes)
        { s.ctp with buffer := .ready .ok [], awaited := none })
    ∧ (exec .nop s = ended .nop { s.ctp with buffer := .ready .ok [], awaited := none })
    ∧ ∀ c, c ≠ .nop → judgeFrame (sofar ++ bytes) = .command c →
      exec (.frameRefused bytes) s = ended (.frameRefused bytes)
        { s.ctp with
          buffer := .pending, awaited := some s.ctp.serial, serial := s.ctp.serial + 1
          outstanding := s.ctp.outstanding ++ [(s.ctp.serial, c)]
            ++ (if c = .clear then [(s.ctp.serial, .clearFlags), (s.ctp.serial, .clearService),
                  (s.ctp.serial, .calibrationAbort)] else []) })
  ∧ (∀ (s : State) (bytes : List Byte), s.held = false →
    (s.ctp.live = true → s.ctp.frame = none → s.inputs.csn = true →
      let begun := { s with
        ctp := { s.ctp with
          frame := some []
          inShift := some (match s.ctp.buffer with
            | .ready st payload => (st, payload)
            | .pending => (.idle, [])
            | .empty => (.idle, [])) }
        inputs := { s.inputs with csn := false } }
      exec (.frameRefused bytes) s = exec (.frameRefused bytes) begun ∧ exec .nop s = exec .nop begun)
    ∧ (s.ctp.live = false ∨ (s.ctp.frame = none ∧ s.inputs.csn = false) →
      exec (.frameRefused bytes) s =
        .next { s.take (.frameRefused bytes) with inputs := { s.inputs with csn := true } }
      ∧ exec .nop s = .next { s.take .nop with inputs := { s.inputs with csn := true } }))

/-- The falling edge of CSN on a live port begins a frame and copies the response buffer as the response in shift: READY
gives the prepared response, PENDING and EMPTY give IDLE with an empty payload (R186); on a dead port, or where CSN is
low already, none begins (R181). In a frame SDO carries status, length, payload and checksum, then 0; at other times it is
undriven (R181, R183, R186). A result of the awaited command fills the pending buffer; any other result is discarded
(R185). PORT_RESET aborts the frame, releases SDO, empties the buffer and drops the awaited command; PORT_LIVE makes the
port live with the buffer EMPTY and no frame, whatever CSN (R188, R93). -/
def Obligations.ThePortPreparesItsResponses : Prop :=
  (∀ s : State, s.held = false →
    (s.ctp.live = true → s.inputs.csn = true →
      exec .frameBegin s = .next { s.take .frameBegin with
        ctp := { s.ctp with
          frame := some []
          inShift := some (match s.ctp.buffer with
            | .ready st payload => (st, payload)
            | .pending => (.idle, [])
            | .empty => (.idle, [])) }
        inputs := { s.inputs with csn := false } })
    ∧ (s.ctp.live = false ∨ s.inputs.csn = false →
      exec .frameBegin s = .next { s.take .frameBegin with inputs := { s.inputs with csn := false } }))
  ∧ (∀ (s : State) (position : Nat),
    (s.ctp.frame = none → s.sdo position = none)
    ∧ ∀ sofar st payload, s.ctp.frame = some sofar → s.ctp.inShift = some (st, payload) →
      ∃ sum : Byte,
        let bytes := [BitVec.ofNat 8 (statusNumber st), BitVec.ofNat 8 payload.length] ++ payload ++ [sum]
        (bytes.map (·.toNat)).sum % 256 = 0 ∧ s.sdo position = some (bytes.getD position 0))
  ∧ (∀ (s : State) (n : Nat) (st : Status) (payload : List Byte), s.held = false →
    (s.ctp.awaited = some n → s.ctp.buffer = .pending →
      exec (.blockResult n st payload) s = .next { s.take (.blockResult n st payload) with
        ctp := { s.ctp with buffer := .ready st payload, awaited := none } })
    ∧ (s.ctp.awaited ≠ some n ∨ s.ctp.buffer ≠ .pending →
      exec (.blockResult n st payload) s = .next (s.take (.blockResult n st payload))))
  ∧ (∀ s : State,
    (TakesReport .portReset s → exec .portReset s = .next { s.take .portReset with
      ctp := { s.ctp with live := false, frame := none, buffer := .empty, awaited := none } })
    ∧ (TakesReport .portLive s → exec .portLive s = .next { s.take .portLive with
      ctp := { s.ctp with live := true, frame := none, buffer := .empty, awaited := none } }))

/-- What taking a command at its block does at the port (R181, R184, R191; log 5). A block takes the commands and parts
that the CTP hands it in the order of their frames, each under its serial number. A command with nothing outstanding at
its block ends its frame and is taken in the same step, CLEAR handing its three further parts out with it. A command
behind another of its block waits, or is handed out behind it; without a frame nothing is taken and CSN rises. Nothing but
the CTP and the level of CSN changes. -/
def Obligations.TakingACommandMovesOnlyThePort : Prop :=
  ∀ (c : Instr) (s : State), s.held = false →
    let next := s.ctp.outstanding.find? fun e => e.2.portBlock = c.portBlock
    let waits := ∃ n, (n, c) ∈ s.ctp.outstanding
    let opened := s.ctp.live = true ∧ (s.ctp.frame.isSome = true ∨ s.inputs.csn = true)
    let rises := { s with inputs := { s.inputs with csn := true } }
    let handedOut := fun (cs : List Instr) =>
      { rises with ctp := { (if s.ctp.frame.isSome then s.ctp else s.ctp.beginFrame) with
          frame := none, buffer := .pending, awaited := some s.ctp.serial, serial := s.ctp.serial + 1
          outstanding := s.ctp.outstanding ++ cs.map fun x => (s.ctp.serial, x) } }
    let parts := if c = .clear then [.clearFlags, .clearService, .calibrationAbort] else []
    let taken := fun n => { s with ctp := { s.ctp with outstanding := s.ctp.outstanding.erase (n, c) } }
    (∀ n s1, Takes c s n s1 → s1 = { s with ctp := s1.ctp, inputs := { s.inputs with csn := s1.inputs.csn } })
    ∧ (∀ n, next = some (n, c) → Takes c s n (taken n))
    ∧ (next = none → opened → Takes c s s.ctp.serial (handedOut parts))
    ∧ (c.portBlock.isSome = true → c.movesCsn = true →
      (∀ e, next = some e → e.2 ≠ c →
        (waits → exec c s = .next s)
        ∧ (¬ waits → opened → exec c s = .next (handedOut (c :: parts)))
        ∧ (¬ waits → ¬ opened → exec c s = .next rises))
      ∧ (next = none → ¬ opened → exec c s = .next rises))
    ∧ (c = .clearFlags ∨ c = .clearService ∨ (c = .calibrationAbort ∧ .calibrationAbort ∉ s.handed) →
      (∀ n, next = some (n, c) → TakesPart c s (taken n))
      ∧ (next = none → TakesPart c s s)
      ∧ (∀ e, next = some e → e.2 ≠ c → exec c s = .next s))

/-! ### Power-on reset -/

/-- Power-on reset leaves every slot FREE with generation 0 but for the boot hold in slot 0, known as (0, 0); its demand on
D0 is reported with its mask; the owner limits are 4, 8 and 2; no flag is raised (R28, R8). The other blocks take the
values of R30, R32, R58, R98, R101, R124, R125, R131, R133, R134, R141, R162, R163, R168, R171, R180, R188, R193 and R194
(in RUN the assertion of run-demand is handed over, log 12). While the supply lies below the threshold the part is held
in power-on reset: every block stands at its power-on state, with no boot hold yet, nothing is in flight, and no arrival
but a power-on reset and the levels of the pins changes anything: an arrival at a wake pin, IGN, a trip input or CSN sets
the level of its input alone (R154; log 13). -/
def Obligations.PowerOnResetAndTheHoldInReset : Prop :=
  (∀ s : State, ∃ t, exec .powerOnReset s = .next t
    ∧ (∀ i : Fin 48, t.htm.slots[i].gen = 0)
    ∧ (∀ i : Fin 48, i ≠ 0 → t.htm.slots[i].hold = none)
    ∧ t.htm.slots[(0 : Fin 48)].hold = some
        { state := .active, owner := 47, mask := 1, cls := 6, code := 60, remaining := some 60, countdown := none,
          interval := none, sinceStart := none, cap := none, charge := 0, reason := none, template := none }
    ∧ t.htm.netLimit = 4 ∧ t.htm.ctlLimit = 8 ∧ t.htm.srcLimit = 2
    ∧ t.handed = .holdDemandReport 1 [1] :: (if s.inputs.ign then [.runDemandReport true] else [])
    ∧ t.evu.pending = 0 ∧ t.held = false ∧ t.inputs = s.inputs ∧ t.pending = s.pending ∧ t.endedByClear = [])
  ∧ (∀ s : State, ∃ t, exec .powerOnReset s = .next t
    ∧ (∀ c : Fin 8, t.tau.classes[c].floor =
        (if c.val ≤ 1 then .green else if c.val ≤ 3 then .amber else if c.val ≤ 5 then .red else .exhausted))
    ∧ (∀ c : Fin 8, t.tau.classes[c].reserve.toNat = (if c.val ≤ 5 then 96 - 16 * c.val else if c.val = 6 then 8 else 0))
    ∧ t.tau.mode = (if s.inputs.ign then .run else .park) ∧ t.tau.budget = .green ∧ t.tau.ceiling = .green
    ∧ t.tau.effective = .green
    ∧ t.cbu = { allowance := 2000, remaining := 7200000, fraction := 256, tier := .green, quiescent := 5, blend := 8,
                tg := 128, ta := 64, tr := 16, lastD := none, lastM := .absent, lastE := none, parkSeconds := 0,
                debited := 0, mode := if s.inputs.ign then .run else .park }
    ∧ (∀ i : Fin 12, t.dsc.domains[i] =
        { enable := true, runEnable := true, draw := 50, settle := 20, runDown := 5, state := .off, attempts := 0,
          timer := none, demanded := false })
    ∧ t.dsc.holdDemand = 0 ∧ t.dsc.runDemand = s.inputs.ign ∧ t.dsc.masterOpen = true
    ∧ t.tmb = { phase := 0, second := 0, minute := 0, day := 0, unset := true }
    ∧ (∀ i : Fin 8, t.wsu.pins[i] =
        { activeHigh := false, debounce := 3, state := if s.inputs.wake.getLsbD i.val then .ready else .held,
          timer := none })
    ∧ (∀ n : Fin 16, t.wsu.sources[n].armOnce = false ∧ t.wsu.sources[n].armAlways = false
        ∧ t.wsu.sources[n].winA = { enable := false, outside := false, start := 0, stop := 0, days := 0 }
        ∧ t.wsu.sources[n].winB = { enable := false, outside := false, start := 0, stop := 0, days := 0 }
        ∧ t.wsu.sources[n].winT = { enable := false, outside := false, minTier := .exhausted }
        ∧ t.wsu.sources[n].logicAnd = false
        ∧ t.wsu.sources[n].template = n ∧ t.wsu.sources[n].last = .none)
    ∧ (∀ n : Fin 16, t.tpe.templates[n] = { mask := 1, cls := 4, code := 30, cap := none, coalesce := true })
    ∧ t.spm.code = none ∧ t.spm.vlow = 90 ∧ t.spm.vcrit = 70 ∧ t.spm.ceiling = .green ∧ t.spm.monitor = true
    ∧ t.spm.lastRaw = none ∧ t.spm.offset = 0 ∧ t.spm.measured = none ∧ t.spm.cal = .never ∧ t.spm.calCount = 0
    ∧ t.spm.calSum = 0
    ∧ t.mdc = { mode := if s.inputs.ign then .run else .park, ign := s.inputs.ign, ignTimer := none,
                parkDelay := 30, parkTimer := none }
    ∧ t.bnl.enable = true ∧ t.bnl.serviceId = 0x5E4 ∧ t.bnl.answerId = 0x5E5 ∧ t.bnl.queue = []
    ∧ t.bnl.buffer = .empty ∧ t.bnl.cancel = false
    ∧ (∀ f : Fin 8, t.bnl.filters[f] = { enable := false, ident := 0, mask := 0x7FF, data := none })
    ∧ t.ctp.live = false ∧ t.ctp.frame = none ∧ t.ctp.buffer = .empty ∧ t.ctp.awaited = none
    ∧ t.evu.pending = 0 ∧ (∀ f : Fin 16, t.evu.levels[f] = .attn) ∧ t.evu.wakeCode = 30 ∧ t.evu.attnLow = false)
  ∧ (∀ s : State, ∃ t, exec .supplyBelowResetThreshold s = .next t
    ∧ t.held = true ∧ t.handed = [] ∧ t.endedByClear = [] ∧ t.inputs = s.inputs ∧ t.pending = s.pending
    ∧ (∀ i : Fin 48, t.htm.slots[i] = { gen := 0, hold := none })
    ∧ (∃ u, exec .powerOnReset s = .next u
      ∧ t.htm = { u.htm with slots := t.htm.slots } ∧ t.tau = u.tau ∧ t.cbu = u.cbu ∧ t.dsc = u.dsc ∧ t.tmb = u.tmb
      ∧ t.wsu = u.wsu ∧ t.tpe = u.tpe ∧ t.spm = u.spm ∧ t.mdc = u.mdc ∧ t.bnl = u.bnl ∧ t.ctp = u.ctp
      ∧ t.evu = u.evu)
    ∧ (∀ c : Instr, c ≠ .powerOnReset → c ≠ .supplyBelowResetThreshold → c.tracksInput = false → c.movesCsn = false →
        exec c t = .next t)
    ∧ (∀ c : Instr, c.movesCsn = true →
        exec c t = .next { t with inputs := { t.inputs with csn := decide (c ≠ .frameBegin) } })
    ∧ (∀ (i : Fin 8) (high : Bool), ∃ wake : BitVec 8,
        exec (.pinLevelChange i high) t = .next { t with inputs := { t.inputs with wake := wake } }
        ∧ ∀ j : Fin 8, wake.getLsbD j.val = if j = i then high else t.inputs.wake.getLsbD j.val)
    ∧ (∀ high : Bool, exec (.ignChange high) t = .next { t with inputs := { t.inputs with ign := high } })
    ∧ ∀ (i : Fin 12) (active : Bool), ∃ trips : DomainSet,
        exec (.faultReport i active) t = .next { t with inputs := { t.inputs with trips := trips } }
        ∧ ∀ j : Fin 12, trips.getLsbD j.val = if j = i then active else t.inputs.trips.getLsbD j.val)

/-! ### Laws that every step keeps -/

/-- The machine after reset satisfies every law of Safety.lean. -/
def Obligations.ResetSatisfiesTheLaws : Prop :=
  tableSound State.reset ∧ tierSound State.reset ∧ budgetSound State.reset ∧ domainsSound State.reset
    ∧ clockSound State.reset ∧ supplySound State.reset ∧ modeSound State.reset ∧ pinsSound State.reset
    ∧ serviceSound State.reset ∧ portSound State.reset ∧ attnSound State.reset

/-- The hold table stays sound (R2, R3, R4, R8, R68): the record follows the state of its hold, and no capped hold has
reached its cap. -/
def Obligations.HoldTableStaysSound : Prop :=
  ∀ s t : State, tableSound s → step s = .next t → tableSound t

/-- After every handling the effective tier is the one R33 forms, and no ACTIVE hold belongs to a class whose floor
tier is above it (R30, R42, R47). -/
def Obligations.NoActiveHoldAboveTheEffectiveTier : Prop :=
  ∀ s t : State, tierSound s → step s = .next t → tierSound t

/-- The budget stays within its bounds, with F and the budget tier as R53 forms them (R51 to R56). -/
def Obligations.BudgetStaysWithinBounds : Prop :=
  ∀ s t : State, budgetSound s → step s = .next t → budgetSound t

/-- A gate is closed only on an enabled domain and, for D1 to D11, behind an open master gate, and never while the trip
input of its domain is active; timers and attempt counts belong to their states (R81, R86, R90, R92). -/
def Obligations.GatesCloseOnlyOnUsableDomains : Prop :=
  ∀ s t : State, domainsSound s → step s = .next t → domainsSound t

/-- The service queue holds at most two frames and the answer buffer at most one answer, in the states of R174, with
the cancel mark as R178 uses it (R171 to R174, R178). -/
def Obligations.ServiceQueueAndAnswerBufferStaySound : Prop :=
  ∀ s t : State, serviceSound s → step s = .next t → serviceSound t

/-- Clock, supply monitor and mode controller stay within their ranges, and the mode follows the debounced ignition (R101,
R103, R155, R157, R158, R160, R163, R164). A pin rests in READY exactly while inactive (R122, R124), a command is awaited
exactly while the buffer is PENDING (R184, R185), a frame is in progress only on a live port with CSN low (R181, R188),
and ATTN is formed from the flags (R194). -/
def Obligations.TheOtherBlocksStaySound : Prop :=
  (∀ s t : State, step s = .next t →
    (clockSound s → clockSound t) ∧ (supplySound s → supplySound t) ∧ (modeSound s → modeSound t))
  ∧ (∀ s t : State, step s = .next t →
    (pinsSound s → pinsSound t) ∧ (portSound s → portSound t) ∧ (attnSound s → attnSound t))

/-! ### Hold operations (01) -/

/-- Domain Di has hold-demand exactly when an ACTIVE hold has Di in its mask, and a handling that leaves the table `t`
reports the new set once, when it has changed or holds entered ACTIVE, with the masks of those (R10). That its flags go
in one setting is the model's (log 14), and that they go after the report too (log 18). So every command but the two of the supply hands at most one report over: the set as
it leaves it, whenever it changes the set; a report itself, taken in its turn, hands none over. -/
def Obligations.HoldDemandComesFromActiveHolds : Prop :=
  (∀ (t : Htm) (d : Fin 12),
    t.demand.getLsbD d.val = true ↔
      ∃ i : Fin 48, ∃ h, t.slots[i].hold = some h ∧ h.state = .active ∧ h.mask.getLsbD d.val = true)
  ∧ (∀ (s : State) (t : Htm) (entered : List DomainSet) (flags : List Flag),
    s.settleTable t entered flags = { s with
      htm := t
      handed := s.handed
        ++ (if t.demand = s.htm.demand ∧ entered = [] then [] else [.holdDemandReport t.demand entered])
        ++ (if flags = [] then [] else [.flagSetting (flagsOf flags)]) })
  ∧ ∀ (c : Instr) (s t : State), s.held = false → c ≠ .powerOnReset → c ≠ .supplyBelowResetThreshold →
    (∀ demand entered, c = .holdDemandReport demand entered → TakesReport c s) →
    exec c s = .next t →
    let reports := List.filter fun x => match x with
      | .holdDemandReport _ _ => true
      | _ => false
    ∃ new, reports t.handed = reports (s.handed.erase c) ++ new
      ∧ (new = [] ∨ ∃ entered, new = [.holdDemandReport t.htm.demand entered])
      ∧ (new = [] → t.htm.demand = s.htm.demand)
      ∧ (t.htm.demand = s.htm.demand → new ≠ [.holdDemandReport t.htm.demand []])

/-- A handle is its slot in bits 5..0 of byte 0 and its generation in bits 3..0 of byte 1 (R199). The handle checks of
R6, in their order, before anything else, on both ports: a slot above 47 is ARG, a FREE slot or another generation is
STALE. A node that then names a hold of another owner is answered NOT_OWNER (R15). A refusal
changes no hold. A refusal's empty payload is the model's choice (log 17). -/
def Obligations.HandlesAndNodesAreChecked : Prop :=
  (∀ w : BitVec 16, (handleOf w).slot.val = w.toNat / 256 % 64 ∧ (handleOf w).gen.toNat = w.toNat % 16)
  ∧ (∀ h : Handle, handleBytes h = [BitVec.ofNat 8 h.slot.val, h.gen.setWidth 8])
  ∧ ((∀ (t : Htm) (h : Handle),
    (47 < h.slot.val → t.resolve h = .error .arg)
    ∧ ∀ i : Fin 48, h.slot.val = i.val →
      (t.slots[i].hold = none → t.resolve h = .error .stale)
      ∧ (∀ x, t.slots[i].hold = some x → h.gen ≠ t.slots[i].gen → t.resolve h = .error .stale)
      ∧ (∀ x, t.slots[i].hold = some x → h.gen = t.slots[i].gen → t.resolve h = .ok (i, x)))
  ∧ (∀ (w : BitVec 16) (code : Byte) (st : Status) (s s1 : State) (n : Nat), s1.htm.resolve (handleOf w) = .error st →
      (Takes (.renew w code) s n s1 → exec (.renew w code) s = .next (s1.hand (.blockResult n st [])))
      ∧ (Takes (.release w) s n s1 → exec (.release w) s = .next (s1.hand (.blockResult n st [])))
      ∧ (Takes (.query w) s n s1 → exec (.query w) s = .next (s1.hand (.blockResult n st []))))
  ∧ (∀ (node code : Byte) (h : Handle) (st : Status) (s : State), s.held = false → s.htm.resolve h = .error st →
      exec (.networkRenew node h code) s =
        .next ((s.take (.networkRenew node h code)).hand (.htmReturn (.refused .renew node h st)))
      ∧ exec (.networkRelease node h) s =
        .next ((s.take (.networkRelease node h)).hand (.htmReturn (.refused .release node h st)))
      ∧ exec (.networkQuery node h) s =
        .next ((s.take (.networkQuery node h)).hand (.htmReturn (.refused .query node h st)))))
  ∧ (∀ (node code : Byte) (h : Handle) (s : State) (i : Fin 48) (x : Hold), s.held = false →
    s.htm.resolve h = .ok (i, x) → x.owner.val ≠ node.toNat →
    exec (.networkRenew node h code) s =
      .next ((s.take (.networkRenew node h code)).hand (.htmReturn (.refused .renew node h .notOwner)))
    ∧ exec (.networkRelease node h) s =
      .next ((s.take (.networkRelease node h)).hand (.htmReturn (.refused .release node h .notOwner)))
    ∧ exec (.networkQuery node h) s =
      .next ((s.take (.networkQuery node h)).hand (.htmReturn (.refused .query node h .notOwner))))

/-- The checks of a REQUEST in the order of R17, with the owner limits of R8, on arguments normalised by R16: the mask's
low 12 bits, the code clamped to 165, the start delay and the repeat interval absent at 0 and clamped, the cap absent at 0.
What fails first decides the status, and the table is unchanged. A refusal's empty payload is the model's choice (log
17). -/
def Obligations.RequestsAreCheckedInOrder : Prop :=
  (∀ (s : State) (lo hi : Nat) (a : RequestArgs),
    let badArgs := a.mask = 0 ∨ 7 < a.cls ∨ a.owner < lo ∨ hi < a.owner
      ∨ (a.interval.isSome = true ∧ a.code.val = 0)
    let o := a.owner % 64
    let limit := if o ≤ 31 then s.htm.netLimit else if o ≤ 46 then s.htm.ctlLimit else if o = 47 then 1 else s.htm.srcLimit
    let atLimit := limit ≤ ((List.finRange 48).filter fun i =>
      (s.htm.slots[i].hold.map fun h => decide (h.owner.val = o)) = some true).length
    let full := ∀ i : Fin 48, s.htm.slots[i].hold ≠ none
    let denied := a.delay = none ∧ s.admits none (Fin.ofNat 8 a.cls) a.mask a.code = false
    (badArgs → s.checkRequest lo hi a = .error .arg)
    ∧ (¬ badArgs → atLimit → s.checkRequest lo hi a = .error .ownerLimit)
    ∧ (¬ badArgs → ¬ atLimit → full → s.checkRequest lo hi a = .error .full)
    ∧ (¬ badArgs → ¬ atLimit → ¬ full → denied → s.checkRequest lo hi a = .error .denied)
    ∧ (¬ badArgs → ¬ atLimit → ¬ full → ¬ denied →
        ∃ i : Fin 48, s.checkRequest lo hi a = .ok i ∧ s.htm.slots[i].hold = none
          ∧ ∀ j : Fin 48, j < i → s.htm.slots[j].hold ≠ none))
  ∧ (∀ (owner cls code : Byte) (mask interval : BitVec 16) (delay cap : BitVec 32) (s s1 : State) (n : Nat)
      (st : Status), Takes (.request owner mask cls code delay interval cap) s n s1 →
      s1.checkRequest 32 46
        { owner := owner.toNat, mask := mask.setWidth 12, cls := cls.toNat, code := clampCode code,
          delay := if delay = 0 then none else some (min delay.toNat 604800)
          interval := if interval = 0 then none else some (min interval.toNat 10080)
          cap := if cap = 0 then none else some cap.toNat } = .error st →
      exec (.request owner mask cls code delay interval cap) s = .next (s1.hand (.blockResult n st [])))
  ∧ (∀ (node cls code : Byte) (mask : DomainSet) (tag : BitVec 4) (s : State) (st : Status), s.held = false →
      s.checkRequest 0 31
        { owner := node.toNat, mask := mask, cls := cls.toNat, code := clampCode code, delay := none, interval := none
          cap := none } = .error st →
      exec (.networkRequest node mask cls code tag) s =
        .next ((s.take (.networkRequest node mask cls code tag)).hand (.htmReturn (.requestRefused node tag st))))

/-- A REQUEST that passes, its arguments normalised by R16, creates its hold in the slot found: a KEEP is ACTIVE with its
remaining time and is reported with its mask (R18), an APPOINT is SCHEDULED with its start countdown and is not reported
(R19); on the network the same with no optional field (R4, R175). The slot keeps its generation, and nothing else
changes. -/
def Obligations.RequestsCreateTheirHold : Prop :=
  (∀ (owner cls code : Byte) (mask interval : BitVec 16) (delay cap : BitVec 32) (s s1 : State) (n : Nat) (i : Fin 48),
    Takes (.request owner mask cls code delay interval cap) s n s1 →
    s1.checkRequest 32 46
      { owner := owner.toNat, mask := mask.setWidth 12, cls := cls.toNat, code := clampCode code,
        delay := if delay = 0 then none else some (min delay.toNat 604800)
        interval := if interval = 0 then none else some (min interval.toNat 10080)
        cap := if cap = 0 then none else some cap.toNat } = .ok i →
    let repeats := if interval = 0 then none else some (min interval.toNat 10080)
    let fresh : Hold :=
      { state := .active, owner := Fin.ofNat 64 owner.toNat, mask := mask.setWidth 12, cls := Fin.ofNat 8 cls.toNat,
        code := clampCode code, remaining := duration (clampCode code), countdown := none,
        interval := repeats, sinceStart := repeats.map fun _ => 0
        cap := if cap = 0 then none else some cap.toNat, charge := 0, reason := none, template := none }
    let handle : Handle := { slot := ⟨i.val, by omega⟩, gen := s1.htm.slots[i].gen }
    (delay.toNat = 0 →
      exec (.request owner mask cls code delay interval cap) s =
        .next (((s1.withHtm (s1.htm.putHold i fresh)).hand
          (.holdDemandReport (s1.htm.putHold i fresh).demand [mask.setWidth 12])).hand
          (.blockResult n .ok (handleBytes handle ++ [2]))))
    ∧ (delay.toNat ≠ 0 →
      exec (.request owner mask cls code delay interval cap) s =
        .next ((s1.withHtm (s1.htm.putHold i { fresh with
            state := .scheduled, remaining := none, sinceStart := none,
            countdown := some (min delay.toNat 604800) })).hand
          (.blockResult n .ok (handleBytes handle ++ [1])))))
  ∧ (∀ (node cls code : Byte) (mask : DomainSet) (tag : BitVec 4) (s : State) (i : Fin 48), s.held = false →
    s.checkRequest 0 31
      { owner := node.toNat, mask := mask, cls := cls.toNat, code := clampCode code, delay := none, interval := none
        cap := none } = .ok i →
    let fresh : Hold :=
      { state := .active, owner := Fin.ofNat 64 node.toNat, mask := mask, cls := Fin.ofNat 8 cls.toNat,
        code := clampCode code, remaining := duration (clampCode code), countdown := none, interval := none,
        sinceStart := none, cap := none, charge := 0, reason := none, template := none }
    exec (.networkRequest node mask cls code tag) s =
      .next ((((s.take (.networkRequest node mask cls code tag)).withHtm (s.htm.putHold i fresh)).hand
        (.holdDemandReport (s.htm.putHold i fresh).demand [mask])).hand
        (.htmReturn (.requestOk node tag { slot := ⟨i.val, by omega⟩, gen := s.htm.slots[i].gen } .active))))
  ∧ (∀ (t : Htm) (i : Fin 48) (h : Hold),
    t.putHold i h = { t with slots := t.slots.set i { gen := t.slots[i].gen, hold := some h } })
  ∧ (∀ (s : State) (t : Htm), s.withHtm t = { s with htm := t })

/-- A RENEW acts by the state of its hold (R20, R21): ACTIVE is tested and renewed or DENIED, SUSPENDED is renewed
without a test, SCHEDULED stores the code alone; code 0 on a repeating hold is ARG. The same on the network for the
node's own hold. A refusal's empty payload is the model's choice (log 17). -/
def Obligations.RenewActsByTheStateOfTheHold : Prop :=
  (∀ (w : BitVec 16) (code : Byte) (s s1 : State) (n : Nat) (i : Fin 48) (h : Hold),
    Takes (.renew w code) s n s1 → s1.htm.resolve (handleOf w) = .ok (i, h) →
    let c := clampCode code
    let renewed : Hold := { h with code := c, remaining := duration c }
    let echo := handleBytes (handleOf w)
    (h.interval.isSome = true ∧ c.val = 0 →
      exec (.renew w code) s = .next (s1.hand (.blockResult n .arg [])))
    ∧ (¬ (h.interval.isSome = true ∧ c.val = 0) →
      (h.state = .active → s1.admits (some i) h.cls h.mask c = true →
        exec (.renew w code) s = .next ((s1.withHtm (s1.htm.putHold i renewed)).hand
          (.blockResult n .ok (echo ++ [2] ++ beBytes 4 ((duration c).getD 0)))))
      ∧ (h.state = .active → s1.admits (some i) h.cls h.mask c = false →
        exec (.renew w code) s = .next (s1.hand (.blockResult n .denied [])))
      ∧ (h.state = .suspended →
        exec (.renew w code) s = .next ((s1.withHtm (s1.htm.putHold i renewed)).hand
          (.blockResult n .ok (echo ++ [3] ++ beBytes 4 ((duration c).getD 0)))))
      ∧ (h.state = .scheduled → h.remaining = none →
        exec (.renew w code) s = .next ((s1.withHtm (s1.htm.putHold i { h with code := c })).hand
          (.blockResult n .ok (echo ++ [1] ++ [0, 0, 0, 0]))))))
  ∧ (∀ (node code : Byte) (handle : Handle) (s : State) (i : Fin 48) (h : Hold), s.held = false →
    s.htm.resolve handle = .ok (i, h) → h.owner.val = node.toNat →
    let c := clampCode code
    let renewed : Hold := { h with code := c, remaining := duration c }
    let s1 := s.take (.networkRenew node handle code)
    (h.interval.isSome = true ∧ c.val = 0 →
      exec (.networkRenew node handle code) s = .next (s1.hand (.htmReturn (.refused .renew node handle .arg))))
    ∧ (¬ (h.interval.isSome = true ∧ c.val = 0) →
      ((h.state = .active ∧ s.admits (some i) h.cls h.mask c = true) ∨ h.state = .suspended →
        exec (.networkRenew node handle code) s =
          .next ((s1.withHtm (s.htm.putHold i renewed)).hand (.htmReturn (.renewOk node handle renewed))))
      ∧ (h.state = .active ∧ s.admits (some i) h.cls h.mask c = false →
        exec (.networkRenew node handle code) s =
          .next (s1.hand (.htmReturn (.refused .renew node handle .denied))))
      ∧ (h.state = .scheduled →
        exec (.networkRenew node handle code) s =
          .next ((s1.withHtm (s.htm.putHold i { h with code := c })).hand
            (.htmReturn (.renewOk node handle { h with code := c }))))))

/-- A RELEASE retires its hold from any non-free state (R22, R12): the slot becomes FREE with the next generation, no
other slot changes, and the demand is reported when it has changed. The same on the network for the node's own
hold. -/
def Obligations.ReleaseRetiresTheHold : Prop :=
  (∀ (w : BitVec 16) (s s1 : State) (n : Nat) (i : Fin 48) (h : Hold),
    Takes (.release w) s n s1 → s1.htm.resolve (handleOf w) = .ok (i, h) →
    ∃ t, exec (.release w) s = .next t ∧ onlyTable s1 t
      ∧ t.htm = { s1.htm with slots := s1.htm.slots.set i { gen := s1.htm.slots[i].gen + 1, hold := none } }
      ∧ t.handed = s1.handed
        ++ (if t.htm.demand = s1.htm.demand then [] else [.holdDemandReport t.htm.demand []])
        ++ [.blockResult n .ok (handleBytes (handleOf w))])
  ∧ (∀ (node : Byte) (handle : Handle) (s : State) (i : Fin 48) (h : Hold), s.held = false →
    s.htm.resolve handle = .ok (i, h) → h.owner.val = node.toNat →
    ∃ t, exec (.networkRelease node handle) s = .next t ∧ onlyTable s t
      ∧ t.htm = { s.htm with slots := s.htm.slots.set i { gen := s.htm.slots[i].gen + 1, hold := none } }
      ∧ t.handed = s.handed.erase (.networkRelease node handle)
        ++ (if t.htm.demand = s.htm.demand then [] else [.holdDemandReport t.htm.demand []])
        ++ [.htmReturn (.releaseOk node handle)])

/-- QUERY and FIND read the table and change nothing in it (R23, R24, R201): the record in its 33 bytes with its
presence byte, or the count and the handles of the matches in ascending slot order; selectors and values outside the
table are ARG. The same record goes to a node for its own hold. A refusal's empty payload is the model's choice (log
17). -/
def Obligations.QueryAndFindReadTheTable : Prop :=
  (∀ (w : BitVec 16) (s s1 : State) (n : Nat) (i : Fin 48) (h : Hold),
    Takes (.query w) s n s1 → s1.htm.resolve (handleOf w) = .ok (i, h) →
    exec (.query w) s = .next (s1.hand (.blockResult n .ok
      (handleBytes (handleOf w)
        ++ [(match h.state with | .scheduled => 1 | .active => 2 | .suspended => 3 : Byte)]
        ++ [BitVec.ofNat 8 h.owner.val] ++ maskBytes h.mask ++ [BitVec.ofNat 8 h.cls.val, BitVec.ofNat 8 h.code.val]
        ++ [((if h.remaining.isSome then 1 else 0) ||| (if h.countdown.isSome then 2 else 0)
            ||| (if h.interval.isSome then 4 else 0) ||| (if h.sinceStart.isSome then 8 else 0)
            ||| (if h.cap.isSome then 16 else 0) ||| (if h.reason.isSome then 32 else 0)
            ||| (if h.template.isSome then 64 else 0) : Byte)]
        ++ beBytes 4 (h.remaining.getD 0) ++ beBytes 4 (h.countdown.getD 0) ++ beBytes 2 (h.interval.getD 0)
        ++ beBytes 4 (h.sinceStart.getD 0) ++ beBytes 4 (h.cap.getD 0) ++ beBytes 4 h.charge
        ++ [(match h.reason with | none => 0 | some .tierDrop => 1 | some .notAdmitted => 2 : Byte)]
        ++ [(match h.template with | none => 0 | some x => BitVec.ofNat 8 x.val : Byte)]))))
  ∧ (∀ (node : Byte) (handle : Handle) (s : State) (i : Fin 48) (h : Hold), s.held = false →
    s.htm.resolve handle = .ok (i, h) → h.owner.val = node.toNat →
    exec (.networkQuery node handle) s =
      .next ((s.take (.networkQuery node handle)).hand (.htmReturn (.queryOk node handle h))))
  ∧ (∀ (selector value : Byte) (s s1 : State) (n : Nat), Takes (.find selector value) s n s1 →
    let answer := fun (p : Hold → Bool) =>
      let found := (List.finRange 48).filter fun i => (s1.htm.slots[i].hold.map p).getD false
      State.hand s1 (.blockResult n .ok (BitVec.ofNat 8 found.length ::
        found.flatMap fun i => [BitVec.ofNat 8 i.val, s1.htm.slots[i].gen.setWidth 8]))
    (selector = 0 → exec (.find selector value) s = .next (answer fun _ => true))
    ∧ (selector = 1 → value.toNat ≤ 63 →
        exec (.find selector value) s = .next (answer fun h => h.owner.val = value.toNat))
    ∧ (∀ st : HoldState, selector = 2 →
        value = (match st with | .scheduled => 1 | .active => 2 | .suspended => 3) →
        exec (.find selector value) s = .next (answer fun h => h.state = st))
    ∧ (2 < selector.toNat ∨ (selector = 1 ∧ 63 < value.toNat) ∨ (selector = 2 ∧ (value = 0 ∨ 3 < value.toNat)) →
        exec (.find selector value) s = .next (s1.hand (.blockResult n .arg []))))

/-- PURGE (R25): an owner above 63 is ARG; otherwise every hold of the owner is retired, each slot's generation advancing by
one (R12), every other slot and the limits are kept, a changed demand is reported once, the count of the retired is the
result, and no flag is set. A refusal's empty payload is the model's choice (log 17). -/
def Obligations.PurgeRetiresTheHoldsOfAnOwner : Prop :=
  ∀ (owner : Byte) (s s1 : State) (n : Nat), Takes (.purge owner) s n s1 →
    (63 < owner.toNat → exec (.purge owner) s = .next (s1.hand (.blockResult n .arg [])))
    ∧ (owner.toNat ≤ 63 → ∃ t, exec (.purge owner) s = .next t ∧ onlyTable s1 t
      ∧ t.htm = { s1.htm with slots := t.htm.slots }
      ∧ (∀ i : Fin 48, t.htm.slots[i] =
          match s1.htm.slots[i].hold with
          | some h => if h.owner.val = owner.toNat then { gen := s1.htm.slots[i].gen + 1, hold := none }
            else s1.htm.slots[i]
          | none => s1.htm.slots[i])
      ∧ t.handed = s1.handed
        ++ (if t.htm.demand = s1.htm.demand then [] else [.holdDemandReport t.htm.demand []])
        ++ [.blockResult n .ok [BitVec.ofNat 8 (((List.finRange 48).filter fun i =>
              (s1.htm.slots[i].hold.map fun h => decide (h.owner.val = owner.toNat)) = some true).length)]])

/-- CLEAR retires every hold, the generations of the non-free slots advancing by one, with one report when there was
demand, the count of the retired as the result, no flag, and the limits kept (R29). LIMITS stores the three owner limits,
0 clamped to 1 and values above 48 to 48, and refuses nothing (R8, R190). -/
def Obligations.ClearRetiresAndLimitsAreStored : Prop :=
  (∀ (s s1 : State) (n : Nat), Takes .clear s n s1 →
    ∃ t, exec .clear s = .next t ∧ onlyTable s1 t
      ∧ t.htm = { s1.htm with slots := t.htm.slots }
      ∧ (∀ i : Fin 48, t.htm.slots[i] =
          { gen := if s1.htm.slots[i].hold.isSome then s1.htm.slots[i].gen + 1 else s1.htm.slots[i].gen, hold := none })
      ∧ t.handed = s1.handed
        ++ (if s1.htm.demand = 0 then [] else [.holdDemandReport 0 []])
        ++ [.blockResult n .ok [BitVec.ofNat 8 (((List.finRange 48).filter fun i =>
              s1.htm.slots[i].hold.isSome).length)]])
  ∧ (∀ (network control source : Byte) (s s1 : State) (n : Nat), Takes (.limits network control source) s n s1 →
    let clamped := fun (b : Byte) => if b = 0 then 1 else if 48 < b.toNat then 48 else b.toNat
    exec (.limits network control source) s = .next ((s1.withHtm { s1.htm with
        netLimit := clamped network, ctlLimit := clamped control, srcLimit := clamped source }).hand
      (.blockResult n .ok [BitVec.ofNat 8 (clamped network), BitVec.ofNat 8 (clamped control),
        BitVec.ofNat 8 (clamped source)])))

/-! ### Admission, tiers and sweeps (02) -/

/-- The admission test (R35 to R37): the floor of the class at or below the effective tier, and in PARK
R - C at least V on unbounded integers, where C counts each marginal domain once at its nominal draw for the whole
horizon, and a domain is marginal when no ACTIVE hold other than the candidate's own covers it. -/
def Obligations.AdmissionWeighsFloorAndMarginalCost : Prop :=
  ∀ (s : State) (own : Option (Fin 48)) (cls : Fin 8) (mask : DomainSet) (code : Fin 166),
    ∃ marginal : DomainSet,
      (∀ d : Fin 12, marginal.getLsbD d.val = true ↔
        (mask.getLsbD d.val = true ∧ ¬ ∃ i : Fin 48, ∃ h, some i ≠ own ∧ s.htm.slots[i].hold = some h
          ∧ h.state = .active ∧ h.mask.getLsbD d.val = true))
      ∧ (s.admits own cls mask code = true ↔
        s.tau.classes[cls].floor.rank ≤ s.tau.effective.rank
        ∧ (s.tau.mode = .park →
            (s.cbu.remaining : Int)
              - ((duration code).getD 3600 * ((List.finRange 12).map fun d =>
                  if marginal.getLsbD d.val then s.dsc.domains[d].draw else 0).sum : Nat)
              ≥ (s.cbu.allowance * 3600 * (s.tau.classes[cls].reserve).toNat / 256 : Nat)))

/-- Each report is recorded and the effective tier is formed anew: GREEN in RUN and PARK_PENDING, in PARK the lower of
the budget tier and the voltage ceiling; the refill report records PARK with the tier (R32 to R34). Outside the TAU
only the table and what is handed over may change. A report that leaves the tier unchanged does nothing further, but for
a report of RUN (R34, R46). Reports of one source to one block are taken in the order in which they were made, at the TAU,
at the DSC, and at the CTP and the CBU (R32, R49, R79; log 23): one behind an earlier one waits, or is handed over behind
it (log 2). -/
def Obligations.ReportsFormTheEffectiveTier : Prop :=
  (∀ s : State,
    let formed := fun (m : Mode) (b c : Tier) =>
      match m with
      | .run => Tier.green
      | .parkPending => Tier.green
      | .park => if b.rank ≤ c.rank then b else c
    (∀ (b : Tier) (parkEntry : Bool), TakesReport (.budgetTierReport b parkEntry) s →
      ∃ t, exec (.budgetTierReport b parkEntry) s = .next t
      ∧ t = { s with tau := t.tau, htm := t.htm, handed := t.handed }
      ∧ t.tau = { s.tau with
          budget := b
          mode := if parkEntry then .park else s.tau.mode
          effective := formed (if parkEntry then .park else s.tau.mode) b s.tau.ceiling })
    ∧ (∀ c : Tier, TakesReport (.voltageCeilingReport c) s →
      ∃ t, exec (.voltageCeilingReport c) s = .next t
      ∧ t = { s with tau := t.tau, htm := t.htm, handed := t.handed }
      ∧ t.tau = { s.tau with ceiling := c, effective := formed s.tau.mode s.tau.budget c })
    ∧ (∀ m : Mode, TakesReport (.modeReport m) s →
      ∃ t, exec (.modeReport m) s = .next t
      ∧ t = { s with tau := t.tau, htm := t.htm, handed := t.handed }
      ∧ t.tau = { s.tau with mode := m, effective := formed m s.tau.budget s.tau.ceiling }))
  ∧ (∀ (c : Instr) (s t : State), TakesReport c s →
    ((∃ b p, c = .budgetTierReport b p) ∨ (∃ v, c = .voltageCeilingReport v) ∨ (∃ m, c = .modeReport m ∧ m ≠ .run)) →
    exec c s = .next t → t.tau.effective = s.tau.effective →
    t.htm = s.htm ∧ t.handed = s.handed.erase c)
  ∧ (∀ (c : Instr) (s : State), s.held = false → c.reportPath.isSome = true →
    let oldest := s.handed.find? fun e => e.reportPath = c.reportPath
    (oldest = none ∨ oldest = some c → TakesReport c s)
    ∧ ∀ e, oldest = some e → e ≠ c → exec c s = .next (if c ∈ s.handed then s else s.hand c))
  ∧ (∀ (b v : Tier) (p a : Bool) (m : Mode) (d : DomainSet) (masks : List DomainSet),
    (Instr.budgetTierReport b p).reportPath = some (.cbu, .tau)
    ∧ (Instr.voltageCeilingReport v).reportPath = some (.spm, .tau)
    ∧ (Instr.modeReport m).reportPath = some (.mdc, .tau)
    ∧ (Instr.holdDemandReport d masks).reportPath = some (.htm, .dsc)
    ∧ (Instr.runDemandReport a).reportPath = some (.mdc, .dsc)
    ∧ Instr.portReset.reportPath = some (.dsc, .ctp) ∧ Instr.portLive.reportPath = some (.dsc, .ctp)
    ∧ (Instr.modeRecord m).reportPath = some (.mdc, .cbu) ∧ Instr.parkEntryRefill.reportPath = some (.mdc, .cbu))

/-- A report after which the effective tier has fallen suspends exactly the ACTIVE holds whose class floor is above the
new tier, with reason TIER_DROP, leaves every other slot as it was, reports a changed demand once and sets TIER_CHANGED,
and HOLD_SUSPENDED where a hold was suspended (R34, R40 to R42). That the two flags go in one setting is the model's
(log 14). -/
def Obligations.AFallSuspendsTheHoldsAboveTheTier : Prop :=
  ∀ (s t : State) (c : Instr), TakesReport c s →
    ((∃ b p, c = .budgetTierReport b p) ∨ (∃ v, c = .voltageCeilingReport v) ∨ (∃ m, c = .modeReport m)) →
    exec c s = .next t → t.tau.effective.rank < s.tau.effective.rank →
    let falls := fun (h : Hold) =>
      decide (h.state = .active ∧ t.tau.effective.rank < s.tau.classes[h.cls].floor.rank)
    (∀ i : Fin 48, t.htm.slots[i] =
      { s.htm.slots[i] with
        hold := s.htm.slots[i].hold.map fun h =>
          if falls h then { h with state := .suspended, reason := some .tierDrop } else h })
    ∧ t.handed = s.handed.erase c
      ++ (if t.htm.demand = s.htm.demand then [] else [.holdDemandReport t.htm.demand []])
      ++ [.flagSetting (if (List.finRange 48).any fun i => (s.htm.slots[i].hold.map falls).getD false
            then 0x0088 else 0x0080)]

/-- A resume sweep, after a rise or on a report of RUN: a SUSPENDED hold whose floor is at or below the effective tier
becomes ACTIVE exactly when it passes admission at its turn, lower slots having been tried before it; its timers and
Ch are kept, and every other slot stays as it was. On a report of RUN every SUSPENDED hold resumes (R43 to R46). When
holds resumed, one report hands over their masks in slot order, and HOLD_RESUMED is set; a rise sets TIER_CHANGED. That
a rise on a report of PARK_PENDING sweeps too is the model's choice between R34 and R46 (log 25), and that the two flags
go in one setting is the model's (log 14). -/
def Obligations.AResumeSweepTriesInSlotOrder : Prop :=
  ∀ (s t : State) (c : Instr), TakesReport c s →
    ((∃ b p, c = .budgetTierReport b p) ∨ (∃ v, c = .voltageCeilingReport v) ∨ (∃ m, c = .modeReport m)) →
    exec c s = .next t →
    (s.tau.effective.rank < t.tau.effective.rank ∨ (c = .modeReport .run ∧ s.tau.effective = t.tau.effective)) →
    (∀ i : Fin 48, ∀ h, s.htm.slots[i].hold = some h → h.state = .suspended →
      t.tau.classes[h.cls].floor.rank ≤ t.tau.effective.rank →
      ∃ atTurn : Htm,
        (∀ j : Fin 48, j < i → atTurn.slots[j] = t.htm.slots[j])
        ∧ (∀ j : Fin 48, i ≤ j → atTurn.slots[j] = s.htm.slots[j])
        ∧ (({ s with tau := t.tau, htm := atTurn } : State).admits (some i) h.cls h.mask h.code = true →
            t.htm.slots[i] = { s.htm.slots[i] with hold := some { h with state := .active, reason := none } })
        ∧ (({ s with tau := t.tau, htm := atTurn } : State).admits (some i) h.cls h.mask h.code = false →
            t.htm.slots[i] = s.htm.slots[i]))
    ∧ (∀ i : Fin 48,
        (∀ h, s.htm.slots[i].hold = some h →
          h.state ≠ .suspended ∨ t.tau.effective.rank < t.tau.classes[h.cls].floor.rank) →
        t.htm.slots[i] = s.htm.slots[i])
    ∧ (c = .modeReport .run → ∀ i : Fin 48, ∀ h, t.htm.slots[i].hold = some h → h.state ≠ .suspended)
    ∧ (let masks := resumedMasks s.htm t.htm
       let flags : FlagSet := (if s.tau.effective.rank < t.tau.effective.rank then 0x0080 else 0)
         ||| (if masks = [] then 0 else 0x0010)
       t.handed = s.handed.erase c ++ (if masks = [] then [] else [.holdDemandReport t.htm.demand masks])
         ++ (if flags = 0 then [] else [.flagSetting flags]))

/-- CLASS_CONFIG (R31, R47): a class above 7 or a floor above 3 is ARG; otherwise both settings are replaced and the
effective tier stays. A floor raised above it suspends the ACTIVE holds of the class, with HOLD_SUSPENDED when there are
any and one report of a changed demand; a floor raised less far or kept moves no hold. A lowered floor tries the SUSPENDED
holds in slot order by admission, as a resume sweep does, with one report of the resumed masks and HOLD_RESUMED. The order
of report, flag and result is the model's choice (log 18). A refusal's empty payload is the model's choice (log 17). -/
def Obligations.ClassConfigPutsTheFloorToTheTable : Prop :=
  ∀ (cls floor reserve : Byte) (s s1 : State) (n : Nat), Takes (.classConfig cls floor reserve) s n s1 →
    (7 < cls.toNat ∨ 3 < floor.toNat →
      exec (.classConfig cls floor reserve) s = .next (s1.hand (.blockResult n .arg [])))
    ∧ ∀ (c : Fin 8) (f : Tier), cls.toNat = c.val → floor.toNat = f.rank →
      let result := Instr.blockResult n .ok [floor, reserve]
      ∃ t, exec (.classConfig cls floor reserve) s = .next t
        ∧ t = { s1 with tau := t.tau, htm := t.htm, handed := t.handed }
        ∧ t.tau = { s1.tau with classes := s1.tau.classes.set c { floor := f, reserve := reserve } }
        ∧ (s1.tau.classes[c].floor.rank < f.rank → s1.tau.effective.rank < f.rank →
            (∀ i : Fin 48, t.htm.slots[i] = { s1.htm.slots[i] with
              hold := s1.htm.slots[i].hold.map fun h =>
                if h.state = .active ∧ h.cls = c then { h with state := .suspended, reason := some .tierDrop }
                else h })
            ∧ t.handed = s1.handed
              ++ (if t.htm.demand = s1.htm.demand then [] else [.holdDemandReport t.htm.demand []])
              ++ (if t.htm = s1.htm then [] else [.flagSetting 0x0008]) ++ [result])
        ∧ (s1.tau.classes[c].floor.rank ≤ f.rank → f.rank ≤ s1.tau.effective.rank ∨ s1.tau.classes[c].floor = f →
            t.htm = s1.htm ∧ t.handed = s1.handed ++ [result])
        ∧ (f.rank < s1.tau.classes[c].floor.rank →
            (∀ i : Fin 48, ∀ h, s1.htm.slots[i].hold = some h → h.state = .suspended →
              t.tau.classes[h.cls].floor.rank ≤ t.tau.effective.rank →
              ∃ atTurn : Htm,
                (∀ j : Fin 48, j < i → atTurn.slots[j] = t.htm.slots[j])
                ∧ (∀ j : Fin 48, i ≤ j → atTurn.slots[j] = s1.htm.slots[j])
                ∧ (({ s1 with tau := t.tau, htm := atTurn } : State).admits (some i) h.cls h.mask h.code = true →
                    t.htm.slots[i] = { s1.htm.slots[i] with hold := some { h with state := .active, reason := none } })
                ∧ (({ s1 with tau := t.tau, htm := atTurn } : State).admits (some i) h.cls h.mask h.code = false →
                    t.htm.slots[i] = s1.htm.slots[i]))
            ∧ (∀ i : Fin 48,
                (∀ h, s1.htm.slots[i].hold = some h →
                  h.state ≠ .suspended ∨ t.tau.effective.rank < t.tau.classes[h.cls].floor.rank) →
                t.htm.slots[i] = s1.htm.slots[i])
            ∧ t.handed = s1.handed
              ++ (if resumedMasks s1.htm t.htm = [] then []
                  else [.holdDemandReport t.htm.demand (resumedMasks s1.htm t.htm), .flagSetting 0x0010])
              ++ [result])

/-! ### The budget (03) -/

/-- F = floor(R x 256 / A) lies in 0..256 and is 256 only at R = A, and the budget tier follows from F and the
thresholds by the table of R53. -/
def Obligations.FractionAndBudgetTier : Prop :=
  (∀ r a : Nat, 0 < a → r ≤ a →
    fractionOf r a * a ≤ r * 256 ∧ r * 256 < (fractionOf r a + 1) * a
    ∧ fractionOf r a ≤ 256 ∧ (fractionOf r a = 256 ↔ r = a))
  ∧ (∀ f tg ta tr : Nat, tr < ta → ta < tg →
    (tierOfFraction f tg ta tr = .green ↔ tg ≤ f)
    ∧ (tierOfFraction f tg ta tr = .amber ↔ ta ≤ f ∧ f < tg)
    ∧ (tierOfFraction f tg ta tr = .red ↔ tr ≤ f ∧ f < ta)
    ∧ (tierOfFraction f tg ta tr = .exhausted ↔ f < tr))

/-- CREDIT (R71): 0 is ARG; otherwise R becomes the lesser of A and R + x, F and the tier are formed anew, a changed
tier is reported, and the result gives the amount credited, R and F. Nothing else changes. A refusal's empty payload
is the model's choice (log 17). -/
def Obligations.CreditRaisesTheBudget : Prop :=
  ∀ (amount : BitVec 32) (s s1 : State) (n : Nat), Takes (.credit amount) s n s1 →
    (amount = 0 → exec (.credit amount) s = .next (s1.hand (.blockResult n .arg [])))
    ∧ (amount ≠ 0 →
      let a := s1.cbu.allowance * 3600
      let r := min a (s1.cbu.remaining + amount.toNat)
      let f := r * 256 / a
      let tier := tierOfFraction f s1.cbu.tg s1.cbu.ta s1.cbu.tr
      exec (.credit amount) s = .next { s1 with
        cbu := { s1.cbu with remaining := r, fraction := f, tier := tier }
        handed := s1.handed ++ (if tier = s1.cbu.tier then [] else [.budgetTierReport tier false])
          ++ [.blockResult n .ok (beBytes 4 (r - s1.cbu.remaining) ++ beBytes 4 r ++ beBytes 4 f)] })

/-- BUDGET_CONFIG (R54, R55, R59, R60): an allowance of 0, a threshold outside 1..256 or out of order is ARG; otherwise
the six settings are stored with Q clamped to 500 and k to 32, R is lowered to a new A below it, F and the tier are
formed once, and a changed tier is reported. The refill of park entry (R70): PARK is recorded, R becomes A with F 256 and
the tier GREEN, the counters of the period start at 0, the last figures stay, and the tier is reported with the mode
PARK. A record of RUN or PARK_PENDING changes the mode alone (R62). A refusal's empty payload is the model's choice
(log 17). -/
def Obligations.BudgetIsConfiguredAndRefilled : Prop :=
  (∀ (allowance q tg ta tr : BitVec 16) (k : Byte) (s s1 : State) (n : Nat),
    Takes (.budgetConfig allowance q k tg ta tr) s n s1 →
    let permitted := allowance.toNat ≠ 0 ∧ tg.toNat ≤ 256 ∧ ta.toNat < tg.toNat ∧ tr.toNat < ta.toNat ∧ 1 ≤ tr.toNat
    (¬ permitted → exec (.budgetConfig allowance q k tg ta tr) s = .next (s1.hand (.blockResult n .arg [])))
    ∧ (permitted →
      let a := allowance.toNat * 3600
      let r := if a < s1.cbu.remaining then a else s1.cbu.remaining
      let f := r * 256 / a
      let tier := tierOfFraction f tg.toNat ta.toNat tr.toNat
      exec (.budgetConfig allowance q k tg ta tr) s = .next { s1 with
        cbu := { s1.cbu with
          allowance := allowance.toNat
          remaining := r
          fraction := f
          tier := tier
          quiescent := if 500 < q.toNat then 500 else q.toNat
          blend := if 32 < k.toNat then 32 else k.toNat
          tg := tg.toNat
          ta := ta.toNat
          tr := tr.toNat }
        handed := s1.handed ++ (if tier = s1.cbu.tier then [] else [.budgetTierReport tier false])
          ++ [.blockResult n .ok (beBytes 2 allowance.toNat ++ beBytes 2 (if 500 < q.toNat then 500 else q.toNat)
            ++ [BitVec.ofNat 8 (if 32 < k.toNat then 32 else k.toNat)] ++ beBytes 2 tg.toNat ++ beBytes 2 ta.toNat
            ++ beBytes 2 tr.toNat ++ beBytes 4 r ++ beBytes 4 f)] }))
  ∧ (∀ s : State,
    (TakesReport .parkEntryRefill s → 1 ≤ s.cbu.allowance → s.cbu.tg ≤ 256 →
      exec .parkEntryRefill s = .next { s with
        cbu := { s.cbu with mode := .park, remaining := s.cbu.allowance * 3600, fraction := 256, tier := .green,
                            parkSeconds := 0, debited := 0 }
        handed := s.handed.erase .parkEntryRefill ++ [.budgetTierReport .green true] })
    ∧ (∀ m : Mode, TakesReport (.modeRecord m) s →
      exec (.modeRecord m) s = .next { s.take (.modeRecord m) with cbu := { s.cbu with mode := m } }))

/-- The interval draw of a domain by its state (R57), and the accounting second in PARK (R62 to R66, R69): D is Q plus the
interval draws, E blends D with a valid M, R is lowered by E and saturates at 0, what was debited and the second are
counted, F and the tier are formed, D, M and E are recorded, a changed tier is reported and the shares are handed over.
In any other mode it has no effect. -/
def Obligations.AccountingSecondDebitsTheBudget : Prop :=
  (∀ d : Domain,
    (d.state = .off → d.intervalDraw = 0) ∧ (d.state = .waking → d.intervalDraw = 2 * d.draw)
    ∧ (d.state = .on → d.intervalDraw = d.draw) ∧ (d.state = .draining → d.intervalDraw = d.draw)
    ∧ (d.state = .faulted → d.intervalDraw = 0) ∧ (d.state = .latched → d.intervalDraw = 0))
  ∧ (∀ s : State, s.held = false →
    (s.cbu.mode ≠ .park → exec .accountingSecond s = .next (s.take .accountingSecond))
    ∧ (s.cbu.mode = .park →
      let d := s.cbu.quiescent + ((List.finRange 12).map fun i => s.dsc.domains[i].intervalDraw).sum
      let e := match s.spm.measured with
        | some m => (s.cbu.blend * m + (32 - s.cbu.blend) * d) / 32
        | none => d
      let r := if e ≤ s.cbu.remaining then s.cbu.remaining - e else 0
      let f := r * 256 / (s.cbu.allowance * 3600)
      let tier := tierOfFraction f s.cbu.tg s.cbu.ta s.cbu.tr
      exec .accountingSecond s = .next { s with
        cbu := { s.cbu with
          remaining := r
          fraction := f
          tier := tier
          debited := min (s.cbu.debited + (s.cbu.remaining - r)) 4294967295
          parkSeconds := min (s.cbu.parkSeconds + 1) 4294967295
          lastD := some d
          lastM := match s.spm.measured with
            | some m => .value m
            | none => .invalid
          lastE := some e }
        handed := s.handed.erase .accountingSecond
          ++ (if tier = s.cbu.tier then [] else [.budgetTierReport tier false])
          ++ (if s.attributionOf = [] then [] else [.attribution s.attributionOf]) }))

/-- The shares of a second (R66): a drawing domain's draw is shared among the n ACTIVE holds that cover it, floor(d / n)
each and the remainder to the lowest slot, so that nothing of it is lost; a domain that draws nothing is not shared; a
hold's share is the sum over its domains, named by its handle, in ascending slot order. -/
def Obligations.SharesAddUpToTheDraw : Prop :=
  ∀ (s : State) (d : Fin 12),
    let sharers := (List.finRange 48).filter fun i => s.htm.slots[i].activeMask.getLsbD d.val
    let draw := s.dsc.domains[d].intervalDraw
    (s.dsc.domains[d].state.gateClosed = true → sharers ≠ [] →
      ((List.finRange 48).map fun i => s.shareOf d i).sum = draw
      ∧ ∀ i : Fin 48, i ∈ sharers →
        s.shareOf d i = draw / sharers.length + (if sharers.head? = some i then draw % sharers.length else 0))
    ∧ (∀ i : Fin 48, i ∉ sharers ∨ s.dsc.domains[d].state.gateClosed = false → s.shareOf d i = 0)
    ∧ s.attributionOf =
        ((List.finRange 48).filter fun i => (List.finRange 12).any fun x =>
          s.dsc.domains[x].state.gateClosed && s.htm.slots[i].activeMask.getLsbD x.val).map fun i =>
            (⟨⟨i.val, by omega⟩, s.htm.slots[i].gen⟩, ((List.finRange 12).map fun x => s.shareOf x i).sum)

/-- An attribution (R67, R68): each share whose handle still passes is added to its hold's Ch, saturating, in whatever
state the hold is; a stale share is dropped; then every hold whose Ch has reached its cap is retired. A changed demand is
reported once, and HOLD_CAPPED is set once when a hold was retired; nothing else is handed over. That the report is handed
over before the flag is the model's choice (log 18). -/
def Obligations.AttributionAddsSharesAndRetiresCappedHolds : Prop :=
  ∀ (shares : List (Handle × Nat)) (s : State), s.held = false → (shares.map fun e => e.1.slot).Nodup →
    ∃ t, exec (.attribution shares) s = .next t ∧ onlyTable s t ∧ t.htm = { s.htm with slots := t.htm.slots }
      ∧ (∀ i : Fin 48, s.htm.slots[i].hold = none → t.htm.slots[i] = s.htm.slots[i])
      ∧ (∀ i : Fin 48, ∀ h, s.htm.slots[i].hold = some h →
          let charge := match shares.find? fun e => e.1 = ⟨⟨i.val, by omega⟩, s.htm.slots[i].gen⟩ with
            | some e => min (h.charge + e.2) 4294967295
            | none => h.charge
          (∀ c, h.cap = some c → c ≤ charge →
            t.htm.slots[i] = { gen := s.htm.slots[i].gen + 1, hold := none })
          ∧ ((∀ c, h.cap = some c → charge < c) →
            t.htm.slots[i] = { s.htm.slots[i] with hold := some { h with charge := charge } }))
      ∧ t.handed = s.handed.erase (.attribution shares)
        ++ (if t.htm.demand = s.htm.demand then [] else [.holdDemandReport t.htm.demand []])
        ++ (if (List.finRange 48).any fun i => s.htm.slots[i].hold.isSome && t.htm.slots[i].hold.isNone
            then [.flagSetting 0x0020] else [])

/-! ### Power domains (04) -/

/-- At the end of a handling of the DSC the Control Port is told exactly when D0 has crossed between ON or DRAINING and
the other states (R93), the flags of the handling are set, and then every domain that has entered WAKING with its trip
input active takes a fault report at once (R86; log 15). A hold-demand report replaces the set, a run-demand report the
indication; every domain then acts on a change of its demanded status by the table of R79. DEMAND_UNMET is set exactly
when a mask of the report names a domain that is LATCHED, disabled, or of D1 to D11 behind a closed master gate (R80), a
FAULTED one behind it among them (log 22). -/
def Obligations.DemandReportsMoveTheDomains : Prop :=
  (∀ (s : State) (d : Dsc) (flags : List Flag),
    let live := fun (x : DomainState) => x == .on || x == .draining
    let before := live s.dsc.domains[(0 : Fin 12)].state
    let after := live d.domains[(0 : Fin 12)].state
    let trips := fun (i : Fin 12) =>
      s.dsc.domains[i].state != .waking && d.domains[i].state == .waking && s.inputs.trips.getLsbD i.val
    ∃ e : Dsc, s.settleDomains d flags = { s with
        dsc := e
        handed := s.handed
          ++ (if before = after then [] else if after then [.portLive] else [.portReset])
          ++ (if flags = [] then [] else [.flagSetting (flagsOf flags)])
          ++ ((List.finRange 12).filter trips).map fun i =>
              .flagSetting (if d.domains[i].attempts ≤ 2 then 0x0100 else 0x0200) }
      ∧ e = { d with domains := e.domains }
      ∧ ∀ i : Fin 12,
        let x := d.domains[i]
        (trips i = false → e.domains[i] = x)
        ∧ (trips i = true → x.attempts ≤ 2 → e.domains[i] = { x with
            state := .faulted
            timer := some (seconds (if x.attempts = 0 then 1 else if x.attempts = 1 then 4 else 16))
            attempts := x.attempts + 1 })
        ∧ (trips i = true → 3 ≤ x.attempts →
            e.domains[i] = { x with state := .latched, timer := none, attempts := x.attempts + 1 }))
  ∧ (∀ s : State,
    (∀ (demand : DomainSet) (entered : List DomainSet), TakesReport (.holdDemandReport demand entered) s → ∃ d : Dsc,
      exec (.holdDemandReport demand entered) s = .next ((s.take (.holdDemandReport demand entered)).settleDomains d
        (if entered.any fun m => (List.finRange 12).any fun i => m.getLsbD i.val
              && (s.dsc.domains[i].state == .latched || !s.dsc.domains[i].enable
                || (i.val != 0 && !s.dsc.masterOpen))
          then [.demandUnmet] else []))
      ∧ d = { s.dsc with domains := d.domains, holdDemand := demand }
      ∧ ∀ i : Fin 12, actsOnDemand s.dsc.domains[i] d.domains[i]
          (demand.getLsbD i.val || (s.dsc.runDemand && s.dsc.domains[i].runEnable))
          (s.dsc.domains[i].enable && (decide (i.val = 0) || s.dsc.masterOpen)))
    ∧ (∀ asserted : Bool, TakesReport (.runDemandReport asserted) s → ∃ d : Dsc,
      exec (.runDemandReport asserted) s = .next ((s.take (.runDemandReport asserted)).settleDomains d [])
      ∧ d = { s.dsc with domains := d.domains, runDemand := asserted }
      ∧ ∀ i : Fin 12, actsOnDemand s.dsc.domains[i] d.domains[i]
          (s.dsc.holdDemand.getLsbD i.val || (asserted && s.dsc.domains[i].runEnable))
          (s.dsc.domains[i].enable && (decide (i.val = 0) || s.dsc.masterOpen))))

/-- A fault report (R86): on a closed gate the timer stops, the gate opens, the count rises by one, and counts 1, 2 and
3 give FAULTED with a backoff of 1, 4 and 16 s and DOMAIN_FAULT, count 4 (and any above it, which no run reaches) LATCHED
and DOMAIN_LATCHED; in OFF, FAULTED and LATCHED it is ignored, and so is a trip input that becomes inactive. The level of
the input is kept. No other domain moves. -/
def Obligations.FaultReportsOpenTheGate : Prop :=
  ∀ (s : State) (i : Fin 12) (active : Bool), s.held = false →
    let d := s.dsc.domains[i]
    let closed := d.state = .waking ∨ d.state = .on ∨ d.state = .draining
    let s1 := { s.take (.faultReport i active) with inputs := { s.inputs with trips := tripsAfter s.inputs.trips i active } }
    let moved := fun (d' : Domain) (f : Flag) =>
      s1.settleDomains { s.dsc with domains := s.dsc.domains.set i d' } [f]
    (∀ j : Fin 12, (tripsAfter s.inputs.trips i active).getLsbD j.val =
        (if j = i then active else s.inputs.trips.getLsbD j.val))
    ∧ (active = false ∨ ¬ closed → exec (.faultReport i active) s = .next s1)
    ∧ (active = true → closed →
        (d.attempts ≤ 2 → exec (.faultReport i active) s =
          .next (moved { d with
            state := .faulted
            timer := some (seconds (if d.attempts = 0 then 1 else if d.attempts = 1 then 4 else 16))
            attempts := d.attempts + 1 } .domainFault))
        ∧ (3 ≤ d.attempts → exec (.faultReport i active) s =
          .next (moved { d with state := .latched, timer := none, attempts := d.attempts + 1 } .domainLatched)))

/-- The four expiries of a domain, by its demand and its gate as they then stand (R83, R84, R85, R87). No other domain
moves, and an expiry that does not belong to the state has no effect (log 4). -/
def Obligations.DomainTimersExpire : Prop :=
  ∀ (s : State) (i : Fin 12), s.held = false →
    let d := s.dsc.domains[i]
    let demanded := s.dsc.holdDemand.getLsbD i.val || (s.dsc.runDemand && d.runEnable)
    let usable := d.enable && (decide (i.val = 0) || s.dsc.masterOpen)
    let moved := fun (c : Instr) (d' : Domain) =>
      Host.Outcome.next (φ := Fault) (ρ := Refusal)
        ((s.take c).settleDomains { s.dsc with domains := s.dsc.domains.set i d' } [])
    (d.state = .waking →
      (demanded = true → exec (.settleExpiry i) s = moved (.settleExpiry i)
        { d with state := .on, timer := if d.attempts = 0 then none else some (seconds 60) })
      ∧ (demanded = false → 0 < d.runDown → exec (.settleExpiry i) s = moved (.settleExpiry i)
        { d with state := .draining, timer := some (seconds d.runDown) })
      ∧ (demanded = false → d.runDown = 0 → exec (.settleExpiry i) s = moved (.settleExpiry i)
        { d with state := .off, timer := none, attempts := 0 }))
    ∧ (d.state = .on → d.timer.isSome = true → exec (.stabilityExpiry i) s = moved (.stabilityExpiry i)
        { d with attempts := 0, timer := none })
    ∧ (d.state = .draining → exec (.runDownExpiry i) s = moved (.runDownExpiry i)
        { d with state := .off, timer := none, attempts := 0 })
    ∧ (d.state = .faulted →
      (demanded = true → usable = true → exec (.backoffExpiry i) s = moved (.backoffExpiry i)
        { d with state := .waking, timer := some (ms d.settle) })
      ∧ (demanded = false ∨ usable = false → exec (.backoffExpiry i) s = moved (.backoffExpiry i)
        { d with state := .off, timer := none, attempts := 0 }))
    ∧ (d.state ≠ .waking → exec (.settleExpiry i) s = .next (s.take (.settleExpiry i)))
    ∧ (d.state ≠ .on ∨ d.timer = none → exec (.stabilityExpiry i) s = .next (s.take (.stabilityExpiry i)))
    ∧ (d.state ≠ .draining → exec (.runDownExpiry i) s = .next (s.take (.runDownExpiry i)))
    ∧ (d.state ≠ .faulted → exec (.backoffExpiry i) s = .next (s.take (.backoffExpiry i)))

/-- DOMAIN_CONFIG (R76, R77, R90): a domain above 11, an enable or run-enable other than 0 and 1, or a disable of D0 is
ARG; otherwise the five settings are stored with their clamps and the one domain moves once, by the settings as
stored: a disable forces OFF with the count kept, an enable wakes a demanded OFF domain behind an open gate, and with
the enable unchanged the domain acts on its demand. A refusal's empty payload is the model's choice (log 17). -/
def Obligations.DomainConfigStoresAndMovesOnce : Prop :=
  ∀ (domain enable runEnable settle runDown : Byte) (draw : BitVec 16) (s s1 : State) (n : Nat),
    Takes (.domainConfig domain enable runEnable draw settle runDown) s n s1 →
    let cmd := Instr.domainConfig domain enable runEnable draw settle runDown
    (11 < domain.toNat ∨ 1 < enable.toNat ∨ 1 < runEnable.toNat ∨ (domain = 0 ∧ enable = 0) →
      exec cmd s = .next (s1.hand (.blockResult n .arg [])))
    ∧ ∀ i : Fin 12, domain.toNat = i.val → enable.toNat ≤ 1 → runEnable.toNat ≤ 1 → ¬ (domain = 0 ∧ enable = 0) →
      ∃ d', exec cmd s = .next ((s1.settleDomains { s1.dsc with domains := s1.dsc.domains.set i d' } []).hand
          (.blockResult n .ok ([enable, runEnable] ++ beBytes 2 d'.draw
            ++ [BitVec.ofNat 8 d'.settle, BitVec.ofNat 8 d'.runDown])))
        ∧ (let d := s1.dsc.domains[i]
           let stored := { d with
              enable := enable == 1, runEnable := runEnable == 1, draw := min draw.toNat 2000
              settle := if settle = 0 then 1 else min settle.toNat 250, runDown := min runDown.toNat 120 }
           let demanded := s1.dsc.holdDemand.getLsbD i.val || (s1.dsc.runDemand && runEnable == 1)
           let open' := decide (i.val = 0) || s1.dsc.masterOpen
           (d.enable = true → enable = 0 →
              (d.state = .waking ∨ d.state = .on ∨ d.state = .draining ∨ d.state = .faulted →
                d' = { stored with state := .off, timer := none, demanded := demanded })
              ∧ (d.state = .off ∨ d.state = .latched → d' = { stored with demanded := demanded }))
           ∧ (d.enable = false → enable = 1 →
              (d.state = .off → demanded = true → open' = true →
                d' = { stored with state := .waking, timer := some (ms stored.settle), demanded := true })
              ∧ (d.state ≠ .off ∨ demanded = false ∨ open' = false → d' = { stored with demanded := demanded }))
           ∧ (d.enable = (enable == 1) → actsOnDemand stored d' demanded (enable == 1 && open')))

/-- CLEAR_FAULT (R89) and MASTER (R91): a FAULTED or LATCHED domain enters OFF with count 0 and wakes at once when
demanded, enabled and not held off (with a fault at once where its switch still trips, `settleDomains`; the result gives
the state before that fault, log 15), any other state is MODE and a domain above 11 ARG; closing the master gate forces
D1 to D11 out of WAKING, ON and DRAINING with the count kept, opening it wakes the demanded and enabled ones, storing
the setting held changes nothing, and another value is ARG. A refusal's empty payload is the model's choice (log 17). -/
def Obligations.ClearFaultAndMaster : Prop :=
  (∀ (domain : Byte) (s s1 : State) (n : Nat), Takes (.clearFault domain) s n s1 →
    (11 < domain.toNat → exec (.clearFault domain) s = .next (s1.hand (.blockResult n .arg [])))
    ∧ ∀ i : Fin 12, domain.toNat = i.val →
      let d := s1.dsc.domains[i]
      let wakes := (s1.dsc.holdDemand.getLsbD i.val || (s1.dsc.runDemand && d.runEnable))
        && (d.enable && (decide (i.val = 0) || s1.dsc.masterOpen))
      let moved := fun (d' : Domain) => s1.settleDomains { s1.dsc with domains := s1.dsc.domains.set i d' } []
      (d.state = .faulted ∨ d.state = .latched →
        (wakes = true → exec (.clearFault domain) s = .next
          ((moved { d with state := .waking, timer := some (ms d.settle), attempts := 0 }).hand
            (.blockResult n .ok [1])))
        ∧ (wakes = false → exec (.clearFault domain) s = .next
          ((moved { d with state := .off, timer := none, attempts := 0 }).hand (.blockResult n .ok [0]))))
      ∧ (d.state ≠ .faulted → d.state ≠ .latched →
        exec (.clearFault domain) s = .next (s1.hand (.blockResult n .mode []))))
  ∧ (∀ (setting : Byte) (s s1 : State) (n : Nat), Takes (.master setting) s n s1 →
    (1 < setting.toNat → exec (.master setting) s = .next (s1.hand (.blockResult n .arg [])))
    ∧ (setting.toNat ≤ 1 → s1.dsc.masterOpen = (setting == 1) →
      exec (.master setting) s = .next (s1.hand (.blockResult n .ok [setting])))
    ∧ (setting.toNat ≤ 1 → s1.dsc.masterOpen ≠ (setting == 1) →
      ∃ d : Dsc, exec (.master setting) s = .next ((s1.settleDomains d []).hand (.blockResult n .ok [setting]))
        ∧ d = { s1.dsc with domains := d.domains, masterOpen := setting == 1 }
        ∧ ∀ i : Fin 12,
          let x := s1.dsc.domains[i]
          (i.val = 0 → d.domains[i] = x)
          ∧ (i.val ≠ 0 → setting = 0 →
              ((x.state = .waking ∨ x.state = .on ∨ x.state = .draining) →
                d.domains[i] = { x with state := .off, timer := none })
              ∧ (x.state = .off ∨ x.state = .faulted ∨ x.state = .latched → d.domains[i] = x))
          ∧ (i.val ≠ 0 → setting = 1 →
              let wakes := (s1.dsc.holdDemand.getLsbD i.val || (s1.dsc.runDemand && x.runEnable)) && x.enable
              (x.state = .off → wakes = true →
                d.domains[i] = { x with state := .waking, timer := some (ms x.settle) })
              ∧ (x.state ≠ .off ∨ wakes = false → d.domains[i] = x))))

/-! ### Time (05) -/

/-- Each second the clock advances with its carries, the next second starts from phase zero, and the expiry is handed
to the CBU, the HTM and the SPM (R99 to R101); CLOCK_UNSET stays. That the clock, one of the four recipients, takes it
before the other three is the model's choice (R100; log 18). The readings for the SPM are operands of the row: the model's
choice too (log 10). -/
def Obligations.TheClockAdvancesWithItsCarries : Prop :=
  ∀ (vbat : Nat) (shunt : Int) (s : State), s.held = false →
    s.tmb.second ≤ 59 → s.tmb.minute ≤ 1439 → s.tmb.day ≤ 6 →
    ∃ t, exec (.oneSecondExpiry vbat shunt) s = .next t
      ∧ t = { s with tmb := t.tmb, handed := t.handed }
      ∧ t.handed = s.handed.erase (.oneSecondExpiry vbat shunt)
          ++ [.accountingSecond, .holdSecond, .voltageConversion vbat shunt]
      ∧ t.tmb.phase = 0 ∧ t.tmb.unset = s.tmb.unset
      ∧ (t.tmb.day * 1440 + t.tmb.minute) * 60 + t.tmb.second
          = ((s.tmb.day * 1440 + s.tmb.minute) * 60 + s.tmb.second + 1) % 604800
      ∧ t.tmb.second ≤ 59 ∧ t.tmb.minute ≤ 1439 ∧ t.tmb.day ≤ 6

/-- SET_CLOCK (R103): a day above 6, a minute above 1439 or a second above 59 is ARG; otherwise the three values are
written and CLOCK_UNSET is cleared, while the phase and everything outside the clock stay. A refusal's empty payload
is the model's choice (log 17). -/
def Obligations.SetClockWritesTheClockAlone : Prop :=
  ∀ (day second : Byte) (minute : BitVec 16) (s s1 : State) (n : Nat), Takes (.setClock day minute second) s n s1 →
    (6 < day.toNat ∨ 1439 < minute.toNat ∨ 59 < second.toNat →
      exec (.setClock day minute second) s = .next (s1.hand (.blockResult n .arg [])))
    ∧ (day.toNat ≤ 6 → minute.toNat ≤ 1439 → second.toNat ≤ 59 →
      exec (.setClock day minute second) s = .next (({ s1 with
        tmb := { phase := s1.tmb.phase, second := second.toNat, minute := minute.toNat, day := day.toNat,
                 unset := false } } : State).hand
        (.blockResult n .ok ([day] ++ beBytes 2 minute.toNat ++ [second]))))

/-- The duration of a timeout code (R106): its three segments, its clamp, strictly increasing over 1 to 165 and at most
86,400 s. -/
def Obligations.TimeoutCodesDecodeToDurations : Prop :=
  (∀ c : Fin 166,
    (c.val = 0 → duration c = none)
    ∧ (1 ≤ c.val → c.val ≤ 60 → duration c = some c.val)
    ∧ (61 ≤ c.val → c.val ≤ 119 → duration c = some ((c.val - 59) * 60))
    ∧ (120 ≤ c.val → duration c = some ((c.val - 117) * 30 * 60)))
  ∧ (∀ c c' : Fin 166, ∀ d d', duration c = some d → duration c' = some d' → c < c' → d < d')
  ∧ (∀ c : Fin 166, ∀ d, duration c = some d → 1 ≤ d ∧ d ≤ 86400)
  ∧ (∀ b : Byte, (b.toNat ≤ 165 → (clampCode b).val = b.toNat) ∧ (165 < b.toNat → (clampCode b).val = 165))

/-- The hold second (R108 to R114): every hold is counted down by one; one whose time runs out is retired, or returns to
SCHEDULED on its grid when it repeats; one whose start countdown runs out starts ACTIVE when it passes admission at its
turn, with the expiries made and the lower starts taken, else SUSPENDED with reason NOT_ADMITTED. Nothing but the table
changes. On a sound table the set is reported once, when it has changed or holds started ACTIVE, with their masks;
HOLD_EXPIRED is set once when a hold expired and HOLD_SUSPENDED once when a start failed (R114); that the two flags go in
one setting is the model's (log 14). That a hold with 1 s left expires though a RENEW or a coalescing renewal with code 1
came just before is the model's choice between R26 or R151 and R109 (log 24). HOLD_EXPIRY, REPEAT_EXPIRY and
APPOINTMENT_START as rows of their own are the hold second as it falls on one hold, and have no effect where its time or
its countdown does not run out: the model's choice (log 8). -/
def Obligations.TheHoldSecondCountsExpiresAndStarts : Prop :=
  (∀ s : State, s.held = false → ∃ t, exec .holdSecond s = .next t ∧ onlyTable s t
    ∧ t.htm = { s.htm with slots := t.htm.slots }
    ∧ (tableSound s →
      let due := fun (i : Fin 48) =>
        s.htm.slots[i].hold.any fun h => decide (h.state = .scheduled ∧ h.countdown = some 1)
      let expired := fun (i : Fin 48) =>
        s.htm.slots[i].hold.any fun h => decide (h.state ≠ .scheduled ∧ h.remaining = some 1)
      let active := fun (i : Fin 48) => t.htm.slots[i].hold.any fun h => decide (h.state = .active)
      let started := ((List.finRange 48).filter fun i => due i && active i).map fun i => t.htm.slots[i].activeMask
      let flags : FlagSet := (if (List.finRange 48).any expired then 0x0004 else 0)
        ||| (if (List.finRange 48).any fun i => due i && !active i then 0x0008 else 0)
      t.handed = s.handed.erase .holdSecond
        ++ (if t.htm.demand = s.htm.demand ∧ started = [] then [] else [.holdDemandReport t.htm.demand started])
        ++ (if flags = 0 then [] else [.flagSetting flags]))
    ∧ (∀ i : Fin 48,
      (s.htm.slots[i].hold = none → t.htm.slots[i] = s.htm.slots[i])
      ∧ ∀ h, s.htm.slots[i].hold = some h →
        let since := h.sinceStart.map fun x => min (x + 1) 4294967295
        (h.state ≠ .scheduled → h.code.val = 0 → h.remaining = none → t.htm.slots[i] = s.htm.slots[i])
        ∧ (∀ m, h.state ≠ .scheduled → h.code.val ≠ 0 → h.remaining = some (m + 2) →
            t.htm.slots[i] = { s.htm.slots[i] with
              hold := some { h with remaining := some (m + 1), sinceStart := since } })
        ∧ (h.state ≠ .scheduled → h.code.val ≠ 0 → h.remaining = some 1 →
            (h.interval = none → t.htm.slots[i] = { gen := s.htm.slots[i].gen + 1, hold := none })
            ∧ (∀ m, h.interval = some m → 1 ≤ m → t.htm.slots[i] = { s.htm.slots[i] with
                hold := some { h with
                  state := .scheduled, remaining := none, sinceStart := none, reason := none
                  countdown := some (m * 60 - since.getD 0 % (m * 60)) } }))
        ∧ (∀ m, h.state = .scheduled → h.countdown = some (m + 2) →
            t.htm.slots[i] = { s.htm.slots[i] with hold := some { h with countdown := some (m + 1) } })
        ∧ (h.state = .scheduled → h.countdown = some 1 →
            let begun : Hold := { h with
              state := .active, remaining := duration h.code, countdown := none
              sinceStart := h.interval.map fun _ => 0, charge := 0, reason := none }
            ∃ atTurn : Htm,
              (∀ j : Fin 48, j < i → atTurn.slots[j] = t.htm.slots[j])
              ∧ (∀ j : Fin 48, i < j → ∀ g, s.htm.slots[j].hold = some g → g.state = .active →
                  g.remaining ≠ some 0 →
                  atTurn.slots[j].activeMask = if g.code.val ≠ 0 ∧ g.remaining = some 1 then 0 else g.mask)
              ∧ (∀ j : Fin 48, i < j → s.htm.slots[j].activeMask = 0 → atTurn.slots[j].activeMask = 0)
              ∧ ((s.withHtm atTurn).admits (some i) h.cls h.mask h.code = true →
                  t.htm.slots[i] = { s.htm.slots[i] with hold := some begun })
              ∧ ((s.withHtm atTurn).admits (some i) h.cls h.mask h.code = false →
                  t.htm.slots[i] = { s.htm.slots[i] with
                    hold := some { begun with state := .suspended, reason := some .notAdmitted } }))))
  ∧ (∀ (s : State) (i : Fin 48) (h : Hold), s.held = false → s.htm.slots[i].hold = some h →
    (h.state ≠ .scheduled → h.code.val ≠ 0 → h.remaining = some 1 →
      (h.interval = none →
        exec (.holdExpiry i) s = .next ((s.take (.holdExpiry i)).settleTable
          { s.htm with slots := s.htm.slots.set i { gen := s.htm.slots[i].gen + 1, hold := none } } [] [.holdExpired]))
      ∧ (∀ m, h.interval = some m →
        exec (.repeatExpiry i) s = .next ((s.take (.repeatExpiry i)).settleTable
          (s.htm.putHold i { h with
            state := .scheduled, remaining := none, sinceStart := none, reason := none
            countdown := some (m * 60 - ((h.sinceStart.map fun x => min (x + 1) 4294967295).getD 0) % (m * 60)) })
          [] [.holdExpired])))
    ∧ (h.state = .scheduled → h.countdown = some 1 →
      let begun : Hold := { h with
        state := .active, remaining := duration h.code, countdown := none
        sinceStart := h.interval.map fun _ => 0, charge := 0, reason := none }
      (s.admits (some i) h.cls h.mask h.code = true →
        exec (.appointmentStart i) s =
          .next ((s.take (.appointmentStart i)).settleTable (s.htm.putHold i begun) [h.mask] []))
      ∧ (s.admits (some i) h.cls h.mask h.code = false →
        exec (.appointmentStart i) s =
          .next ((s.take (.appointmentStart i)).settleTable
            (s.htm.putHold i { begun with state := .suspended, reason := some .notAdmitted }) [] [.holdSuspended]))))
  ∧ (∀ (s : State) (i : Fin 48), s.held = false →
    let quiet := fun (c : Instr) => exec c s = .next (s.take c)
    (s.htm.slots[i].hold = none → quiet (.holdExpiry i) ∧ quiet (.repeatExpiry i) ∧ quiet (.appointmentStart i))
    ∧ ∀ h, s.htm.slots[i].hold = some h →
      (h.state = .scheduled ∨ h.remaining = none ∨ (∃ m, h.remaining = some (m + 2)) →
        quiet (.holdExpiry i) ∧ quiet (.repeatExpiry i))
      ∧ (h.interval ≠ none → quiet (.holdExpiry i))
      ∧ (h.interval = none → quiet (.repeatExpiry i))
      ∧ (h.state ≠ .scheduled ∨ (∃ m, h.countdown = some (m + 2)) → quiet (.appointmentStart i)))

/-! ### Wake sources and templates (06, 07) -/

/-- A pin machine (R121, R122): an activation starts the debounce, or raises the event at once where the code is 0; a
release stops it; the expiry raises the event; a change that leaves the level as it was is no change, and an expiry
outside DEBOUNCING has no effect (log 4). No other pin moves. -/
def Obligations.PinMachinesDebounceTheirLevel : Prop :=
  ∀ (i : Fin 8) (high : Bool) (s : State), s.held = false →
    let p := s.wsu.pins[i]
    let source : Fin 16 := ⟨i.val, by omega⟩
    let s1 := { s.take (.pinLevelChange i high) with
      inputs := { s.inputs with wake := wakeLevelsAfter s.inputs.wake i high } }
    let put := fun (x : State) (p' : Pin) => { x with wsu := { s.wsu with pins := s.wsu.pins.set i p' } }
    (high = s.inputs.wake.getLsbD i.val → exec (.pinLevelChange i high) s = .next s1)
    ∧ (high ≠ s.inputs.wake.getLsbD i.val → high = p.activeHigh → p.state = .ready →
        (0 < p.debounce → exec (.pinLevelChange i high) s =
          .next (put s1 { p with state := .debouncing, timer := some (ms (10 * p.debounce)) }))
        ∧ (p.debounce = 0 → exec (.pinLevelChange i high) s =
          .next ((put s1 { p with state := .held, timer := none }).hand (.wakeEvent source))))
    ∧ (high ≠ s.inputs.wake.getLsbD i.val → high ≠ p.activeHigh →
        (p.state = .debouncing → exec (.pinLevelChange i high) s =
          .next (put s1 { p with state := .ready, timer := none }))
        ∧ (p.state = .held → exec (.pinLevelChange i high) s = .next (put s1 { p with state := .ready })))
    ∧ (p.state = .debouncing → exec (.debounceExpiry i) s =
        .next ((put (s.take (.debounceExpiry i)) { p with state := .held, timer := none }).hand (.wakeEvent source)))
    ∧ (p.state ≠ .debouncing → exec (.debounceExpiry i) s = .next (s.take (.debounceExpiry i)))
    ∧ ∀ j : Fin 8, (wakeLevelsAfter s.inputs.wake i high).getLsbD j.val =
        (if j = i then high else s.inputs.wake.getLsbD j.val)

/-- A clock window is inside by the day, the minute and CLOCK_UNSET, wrapping past midnight where start is above end
(R129); a tier window at or above its minimum (R130). An event qualifies by the conditions of the enabled windows under
OR or AND, and always where no window is enabled; an OUTSIDE window yields the opposite condition. Power-on reset disables
every window, with area INSIDE, start and end 0, an empty day set, minimum tier EXHAUSTED and the logic OR, so that every
event qualifies until one is enabled (R131). -/
def Obligations.EventsQualifyByTheirWindows : Prop :=
  ((∀ (w : ClockWindow) (c : Tmb),
    w.inside c = true ↔
      c.unset = false ∧ w.days.getLsbD c.day = true
      ∧ ((w.start < w.stop ∧ w.start ≤ c.minute ∧ c.minute < w.stop)
        ∨ (w.stop < w.start ∧ (w.start ≤ c.minute ∨ c.minute < w.stop))))
  ∧ (∀ (w : TierWindow) (e : Tier), w.inside e = true ↔ w.minTier.rank ≤ e.rank))
  ∧ (∀ (x : Source) (c : Tmb) (e : Tier),
    let holdsA := xor x.winA.outside (x.winA.inside c)
    let holdsB := xor x.winB.outside (x.winB.inside c)
    let holdsT := xor x.winT.outside (x.winT.inside e)
    (x.winA.enable = false → x.winB.enable = false → x.winT.enable = false → x.qualifies c e = true)
    ∧ (x.winA.enable = true ∨ x.winB.enable = true ∨ x.winT.enable = true →
      (x.logicAnd = false → (x.qualifies c e = true ↔
        (x.winA.enable = true ∧ holdsA = true) ∨ (x.winB.enable = true ∧ holdsB = true)
          ∨ (x.winT.enable = true ∧ holdsT = true)))
      ∧ (x.logicAnd = true → (x.qualifies c e = true ↔
        (x.winA.enable = true → holdsA = true) ∧ (x.winB.enable = true → holdsB = true)
          ∧ (x.winT.enable = true → holdsT = true)))))
  ∧ (∀ s : State, ∃ t, exec .powerOnReset s = .next t ∧ ∀ n : Fin 16,
    let x := t.wsu.sources[n]
    x.winA = { enable := false, outside := false, start := 0, stop := 0, days := 0 }
    ∧ x.winB = { enable := false, outside := false, start := 0, stop := 0, days := 0 }
    ∧ x.winT = { enable := false, outside := false, minTier := .exhausted } ∧ x.logicAnd = false
    ∧ ∀ c e, x.qualifies c e = true)

/-- A wake event is judged by qualification, then by arming (R132, R133): WINDOW or DISARMED is recorded with
WAKE_REFUSED; an event that passes both clears ARM_ONCE and is handed over with the template index as stored. No other
source changes. Then the TPE reads the indexed template as it stands and hands an application over, passes the outcome
back, and the WSU records it and sets WAKE_ACCEPTED or WAKE_REFUSED (R134, R135, R144). -/
def Obligations.WakeEventsAreJudgedAndAnswered : Prop :=
  (∀ (i : Fin 16) (s : State), s.held = false →
    let x := s.wsu.sources[i]
    let put := fun (x' : Source) =>
      { s.take (.wakeEvent i) with wsu := { s.wsu with sources := s.wsu.sources.set i x' } }
    (x.qualifies s.tmb s.tau.effective = false →
      exec (.wakeEvent i) s = .next ((put { x with last := .window }).hand (.flagSetting 0x0002)))
    ∧ (x.qualifies s.tmb s.tau.effective = true → x.armOnce = false → x.armAlways = false →
      exec (.wakeEvent i) s = .next ((put { x with last := .disarmed }).hand (.flagSetting 0x0002)))
    ∧ (x.qualifies s.tmb s.tau.effective = true → x.armOnce = true ∨ x.armAlways = true →
      exec (.wakeEvent i) s = .next ((put { x with armOnce := false }).hand (.handOver i x.template))))
  ∧ (∀ (i template : Fin 16) (o : WakeOutcome) (s : State), s.held = false →
    exec (.handOver i template) s =
      .next ((s.take (.handOver i template)).hand (.application i template s.tpe.templates[template]))
    ∧ exec (.tpeReturn i o) s = .next ((s.take (.tpeReturn i o)).hand (.wsuReturn i o))
    ∧ (let s1 := { s.take (.wsuReturn i o) with
        wsu := { s.wsu with sources := s.wsu.sources.set i { s.wsu.sources[i] with last := o } } }
      (o = .accepted ∨ o = .coalesced → exec (.wsuReturn i o) s = .next (s1.hand (.flagSetting 0x0001)))
      ∧ (o = .limit ∨ o = .full → exec (.wsuReturn i o) s = .next (s1.hand (.flagSetting 0x0002)))))

/-- An application in its four steps (R145 to R150): with the coalesce flag the lowest hold of the owner and index is
renewed without a test; else the owner limit; else a FREE slot, or on a full table the SUSPENDED hold of the lowest
class in the highest slot is retired; then the hold is created ACTIVE or SUSPENDED by admission with no slot of its
own. The outcome returns to the TPE. That HOLD_EVICTED and HOLD_SUSPENDED go in one setting is the model's (log 14). -/
def Obligations.ApplicationsCoalesceOrCreate : Prop :=
  ∀ (source index : Fin 16) (f : Template) (s : State), s.held = false →
    let c := Instr.application source index f
    let s1 := s.take c
    let same := fun (h : Hold) => h.owner.val = 48 + source.val ∧ h.template = some index
    let count := ((List.finRange 48).filter fun i =>
      (s.htm.slots[i].hold.map fun h => decide (h.owner.val = 48 + source.val)).getD false).length
    let made : Hold :=
      { state := .active, owner := ⟨48 + source.val, by omega⟩, mask := f.mask, cls := f.cls, code := f.code,
        remaining := duration f.code, countdown := none, interval := none, sinceStart := none, cap := f.cap,
        charge := 0, reason := none, template := some index }
    let hold := if s.admits none f.cls f.mask f.code then made
      else { made with state := .suspended, reason := some .notAdmitted }
    let entered := if s.admits none f.cls f.mask f.code then [f.mask] else []
    let refusal := if s.admits none f.cls f.mask f.code then [] else [Flag.holdSuspended]
    (∀ (i : Fin 48) (h : Hold), f.coalesce = true → s.htm.slots[i].hold = some h → same h →
      (∀ j : Fin 48, j < i → ∀ g, s.htm.slots[j].hold = some g → ¬ same g) →
      exec c s = .next ((s1.withHtm (s.htm.putHold i { h with code := f.code, remaining := duration f.code })).hand
        (.tpeReturn source .coalesced)))
    ∧ ((f.coalesce = false ∨ ∀ i : Fin 48, ∀ h, s.htm.slots[i].hold = some h → ¬ same h) →
      (s.htm.srcLimit ≤ count → exec c s = .next (s1.hand (.tpeReturn source .limit)))
      ∧ (count < s.htm.srcLimit →
        (∀ i : Fin 48, s.htm.slots[i].hold = none → (∀ j : Fin 48, j < i → s.htm.slots[j].hold ≠ none) →
          exec c s = .next ((s1.settleTable (s.htm.putHold i hold) entered refusal).hand (.tpeReturn source .accepted)))
        ∧ ((∀ i : Fin 48, ∃ h, s.htm.slots[i].hold = some h ∧ h.state ≠ .suspended) →
          exec c s = .next (s1.hand (.tpeReturn source .full)))
        ∧ (∀ (i : Fin 48) (v : Hold), (∀ j : Fin 48, s.htm.slots[j].hold ≠ none) →
          s.htm.slots[i].hold = some v → v.state = .suspended →
          (∀ j : Fin 48, ∀ g, s.htm.slots[j].hold = some g → g.state = .suspended →
            v.cls < g.cls ∨ (v.cls = g.cls ∧ j ≤ i)) →
          exec c s = .next ((s1.settleTable ((s.htm.retire i).putHold i hold) entered
            (.holdEvicted :: refusal)).hand (.tpeReturn source .accepted)))))

/-- The owner-47 request (R197): an existing hold of owner 47 is renewed without a test when the code is longer than its
remaining time, code 0 counting as longest; else one is created by the rules of a template on D0 at class 6, and on a
full table without a SUSPENDED hold nothing is. The order of its report and its flags is the model's choice (log 18), and that its
flags go in one setting is the model's (log 14). -/
def Obligations.TheHostHoldIsRenewedOrCreated : Prop :=
  ∀ (code : Fin 166) (s : State), s.held = false →
    let c := Instr.owner47Request code
    let s1 := s.take c
    let made : Hold :=
      { state := .active, owner := 47, mask := 1, cls := 6, code := code, remaining := duration code,
        countdown := none, interval := none, sinceStart := none, cap := none, charge := 0, reason := none,
        template := none }
    let hold := if s.admits none 6 1 code then made else { made with state := .suspended, reason := some .notAdmitted }
    let entered : List DomainSet := if s.admits none 6 1 code then [1] else []
    let refusal := if s.admits none 6 1 code then [] else [Flag.holdSuspended]
    (∀ (i : Fin 48) (h : Hold), s.htm.slots[i].hold = some h → h.owner = 47 →
      (∀ j : Fin 48, j < i → ∀ g, s.htm.slots[j].hold = some g → g.owner ≠ 47) →
      (h.code.val = 0 → exec c s = .next s1)
      ∧ (h.code.val ≠ 0 → ∀ r, h.remaining = some r →
        (code.val = 0 ∨ (∃ d, duration code = some d ∧ r < d) →
          exec c s = .next (s1.withHtm (s.htm.putHold i { h with code := code, remaining := duration code })))
        ∧ ((∃ d, duration code = some d ∧ d ≤ r) → exec c s = .next s1)))
    ∧ ((∀ i : Fin 48, ∀ h, s.htm.slots[i].hold = some h → h.owner ≠ 47) →
      (∀ i : Fin 48, s.htm.slots[i].hold = none → (∀ j : Fin 48, j < i → s.htm.slots[j].hold ≠ none) →
        exec c s = .next (s1.settleTable (s.htm.putHold i hold) entered refusal))
      ∧ ((∀ i : Fin 48, ∃ h, s.htm.slots[i].hold = some h ∧ h.state ≠ .suspended) → exec c s = .next s1)
      ∧ (∀ (i : Fin 48) (v : Hold), (∀ j : Fin 48, s.htm.slots[j].hold ≠ none) →
        s.htm.slots[i].hold = some v → v.state = .suspended →
        (∀ j : Fin 48, ∀ g, s.htm.slots[j].hold = some g → g.state = .suspended →
          v.cls < g.cls ∨ (v.cls = g.cls ∧ j ≤ i)) →
        exec c s = .next (s1.settleTable ((s.htm.retire i).putHold i hold) entered (.holdEvicted :: refusal))))

/-- SOURCE_CONFIG (R120, R124): the settings of one source are stored together, a debounce code above 15 clamped, a
polarity change stopping the debounce and leaving the pin READY or HELD by its level; for sources 8 to 15 polarity and
debounce are not stored; what is out of range is ARG and changes nothing. A refusal's empty payload is the model's
choice (log 17). -/
def Obligations.SourceConfigStoresOneSource : Prop :=
  ∀ (a : SourceArgs) (s s1 : State) (n : Nat), Takes (.sourceConfig a) s n s1 →
    let window := fun (w : ClockArgs) =>
      w.enable.toNat ≤ 1 ∧ w.area.toNat ≤ 1 ∧ w.start.toNat ≤ 1439 ∧ w.stop.toNat ≤ 1439
    let sent := fun (w : ClockArgs) =>
      [w.enable, w.area] ++ beBytes 2 w.start.toNat ++ beBytes 2 w.stop.toNat ++ [w.days &&& 0x7F]
    let ranges := a.source.toNat ≤ 15 ∧ a.armOnce.toNat ≤ 1 ∧ a.armAlways.toNat ≤ 1 ∧ a.logic.toNat ≤ 1
      ∧ a.template.toNat ≤ 15 ∧ window a.winA ∧ window a.winB ∧ a.tierEnable.toNat ≤ 1 ∧ a.tierArea.toNat ≤ 1
      ∧ a.minTier.toNat ≤ 3 ∧ (a.source.toNat ≤ 7 → a.polarity.toNat ≤ 1)
    (¬ ranges → exec (.sourceConfig a) s = .next (s1.hand (.blockResult n .arg [])))
    ∧ (ranges → ∀ i : Fin 16, a.source.toNat = i.val →
      ∃ t : State, exec (.sourceConfig a) s = .next (t.hand (.blockResult n .ok
          ((if i.val ≤ 7 then [a.polarity, BitVec.ofNat 8 (min a.debounce.toNat 15)] else [0, 0])
            ++ [a.armOnce, a.armAlways, a.template, a.logic] ++ sent a.winA ++ sent a.winB
            ++ [a.tierEnable, a.tierArea, a.minTier])))
        ∧ t = { s1 with wsu := t.wsu }
        ∧ (∀ j : Fin 16, j ≠ i → t.wsu.sources[j] = s1.wsu.sources[j])
        ∧ (let x := t.wsu.sources[i]
           x.armOnce = (a.armOnce == 1) ∧ x.armAlways = (a.armAlways == 1) ∧ x.logicAnd = (a.logic == 1)
           ∧ x.template.val = a.template.toNat ∧ x.last = s1.wsu.sources[i].last
           ∧ x.winA = { enable := a.winA.enable == 1, outside := a.winA.area == 1, start := a.winA.start.toNat,
                        stop := a.winA.stop.toNat, days := a.winA.days.setWidth 7 }
           ∧ x.winB = { enable := a.winB.enable == 1, outside := a.winB.area == 1, start := a.winB.start.toNat,
                        stop := a.winB.stop.toNat, days := a.winB.days.setWidth 7 }
           ∧ x.winT.enable = (a.tierEnable == 1) ∧ x.winT.outside = (a.tierArea == 1)
           ∧ x.winT.minTier.rank = a.minTier.toNat)
        ∧ (7 < i.val → t.wsu.pins = s1.wsu.pins)
        ∧ (∀ p : Fin 8, p.val ≠ i.val → t.wsu.pins[p] = s1.wsu.pins[p])
        ∧ (∀ p : Fin 8, p.val = i.val →
          let old := s1.wsu.pins[p]
          let active := s1.inputs.wake.getLsbD p.val == (a.polarity == 1)
          ((a.polarity == 1) = old.activeHigh →
            t.wsu.pins[p] = { old with debounce := min a.debounce.toNat 15 })
          ∧ ((a.polarity == 1) ≠ old.activeHigh →
            t.wsu.pins[p] = { activeHigh := a.polarity == 1, debounce := min a.debounce.toNat 15,
                              state := if active then .held else .ready, timer := none })))

/-- TEMPLATE_CONFIG (R142) and FILTER_CONFIG (R125) store all the fields of one template or one filter and leave every
other as it was; what is out of range is ARG. A refusal's empty payload is the model's choice (log 17). -/
def Obligations.TemplatesAndFiltersAreStored : Prop :=
  (∀ (template cls code coalesce : Byte) (mask : BitVec 16) (cap : BitVec 32) (s s1 : State) (n : Nat),
    Takes (.templateConfig template mask cls code cap coalesce) s n s1 →
    let c := Instr.templateConfig template mask cls code cap coalesce
    (15 < template.toNat ∨ mask.setWidth 12 = 0 ∨ 7 < cls.toNat ∨ 1 < coalesce.toNat →
      exec c s = .next (s1.hand (.blockResult n .arg [])))
    ∧ ∀ i : Fin 16, template.toNat = i.val → mask.setWidth 12 ≠ 0 → ∀ k : Fin 8, cls.toNat = k.val →
      coalesce.toNat ≤ 1 →
      let x : Template :=
        { mask := mask.setWidth 12, cls := k, code := clampCode code,
          cap := if cap = 0 then none else some cap.toNat, coalesce := coalesce == 1 }
      exec c s = .next (({ s1 with tpe := { s1.tpe with templates := s1.tpe.templates.set i x } } : State).hand
        (.blockResult n .ok (beBytes 2 (mask.setWidth 12).toNat ++ [cls, BitVec.ofNat 8 (clampCode code).val]
          ++ beBytes 4 cap.toNat ++ [coalesce]))))
  ∧ (∀ (filter enable dataFlag index value valueMask : Byte) (ident mask : BitVec 16) (s s1 : State) (n : Nat),
    Takes (.filterConfig filter enable ident mask dataFlag index value valueMask) s n s1 →
    let c := Instr.filterConfig filter enable ident mask dataFlag index value valueMask
    (7 < filter.toNat ∨ 1 < enable.toNat ∨ 0x7FF < ident.toNat ∨ 0x7FF < mask.toNat ∨ 1 < dataFlag.toNat
        ∨ (dataFlag = 1 ∧ 7 < index.toNat) →
      exec c s = .next (s1.hand (.blockResult n .arg [])))
    ∧ ∀ i : Fin 8, filter.toNat = i.val → enable.toNat ≤ 1 → ident.toNat ≤ 0x7FF → mask.toNat ≤ 0x7FF →
      let put := fun (x : Filter) =>
        ({ s1 with bnl := { s1.bnl with filters := s1.bnl.filters.set i x } } : State)
      (dataFlag = 0 →
        exec c s = .next ((put { enable := enable == 1, ident := ident.setWidth 11, mask := mask.setWidth 11,
                                 data := none }).hand
          (.blockResult n .ok ([enable] ++ beBytes 2 ident.toNat ++ beBytes 2 mask.toNat ++ [0, 0, 0, 0]))))
      ∧ (dataFlag = 1 → ∀ k : Fin 8, index.toNat = k.val →
        exec c s = .next ((put { enable := enable == 1, ident := ident.setWidth 11, mask := mask.setWidth 11,
                                 data := some { index := k, value := value, valueMask := valueMask } }).hand
          (.blockResult n .ok ([enable] ++ beBytes 2 ident.toNat ++ beBytes 2 mask.toNat
            ++ [1, index, value, valueMask])))))

/-! ### Supply and mode (08) -/

/-- The voltage code (R154) and the voltage ceiling after a conversion, by the ceiling before, the new code and the
thresholds, with its two codes of hysteresis (R155). A conversion (R156, R158, R160): the code and the ceiling are formed,
a changed ceiling is reported with VOLTAGE_CEILING; then M is the raw current less the offset, clamped, when the monitor
is enabled and no calibration is RUNNING; while one is, a sample is taken instead, and the fourth completes it with
CAL_ENDED. That VOLTAGE_CEILING and CAL_ENDED go in one setting is the model's (log 14). The readings are operands of the
row, and any shunt reading is cut to the converter's range: the model's choice (log 10). -/
def Obligations.ConversionsFormCodeCeilingAndCurrent : Prop :=
  ((∀ vbat : Nat,
    ((voltageCode vbat : Nat) : Int) = max 0 (min 255 (((vbat : Int) - 6000) / 50)))
  ∧ (∀ v vlow vcrit : Nat,
    (v < vcrit → ceilingAfter .green v vlow vcrit = .exhausted)
    ∧ (¬ v < vcrit → v < vlow → ceilingAfter .green v vlow vcrit = .red)
    ∧ (¬ v < vcrit → ¬ v < vlow → ceilingAfter .green v vlow vcrit = .green)
    ∧ (v < vcrit → ceilingAfter .red v vlow vcrit = .exhausted)
    ∧ (¬ v < vcrit → vlow + 2 ≤ v → ceilingAfter .red v vlow vcrit = .green)
    ∧ (¬ v < vcrit → ¬ vlow + 2 ≤ v → ceilingAfter .red v vlow vcrit = .red)
    ∧ (vlow + 2 ≤ v → ceilingAfter .exhausted v vlow vcrit = .green)
    ∧ (¬ vlow + 2 ≤ v → vcrit + 2 ≤ v → ceilingAfter .exhausted v vlow vcrit = .red)
    ∧ (¬ vlow + 2 ≤ v → ¬ vcrit + 2 ≤ v → ceilingAfter .exhausted v vlow vcrit = .exhausted)
    ∧ ∀ before : Tier, before ≠ .amber → ceilingAfter before v vlow vcrit ≠ .amber))
  ∧ (∀ (vbat : Nat) (shunt : Int) (s : State), s.held = false →
    let v := voltageCode vbat
    let ceiling := ceilingAfter s.spm.ceiling v s.spm.vlow s.spm.vcrit
    let raw := max (-1024) (min shunt 16383)
    let base := { s.spm with code := some v, ceiling := ceiling }
    let sampled := { base with lastRaw := some raw, calSum := s.spm.calSum + raw, calCount := s.spm.calCount + 1 }
    let average := Int.fdiv (s.spm.calSum + raw) 4
    let told := if ceiling = s.spm.ceiling then [] else [.voltageCeilingReport ceiling]
    let after := fun (m : Spm) (flags : List Instr) =>
      Host.Outcome.next (φ := Fault) (ρ := Refusal)
        { s with spm := m, handed := s.handed.erase (.voltageConversion vbat shunt) ++ told ++ flags }
    let moved := if ceiling = s.spm.ceiling then [] else [Instr.flagSetting 0x2000]
    let movedEnded := if ceiling = s.spm.ceiling then [Instr.flagSetting 0x8000] else [.flagSetting 0xA000]
    (s.spm.cal ≠ .running → s.spm.monitor = true →
      exec (.voltageConversion vbat shunt) s = after
        { base with lastRaw := some raw, measured := some (max 0 (min (raw - s.spm.offset) 16383)).toNat } moved)
    ∧ (s.spm.cal ≠ .running → s.spm.monitor = false → exec (.voltageConversion vbat shunt) s = after base moved)
    ∧ (s.spm.cal = .running → s.spm.calCount < 3 → exec (.voltageConversion vbat shunt) s = after sampled moved)
    ∧ (s.spm.cal = .running → s.spm.calCount = 3 → -64 ≤ average → average ≤ 63 →
      exec (.voltageConversion vbat shunt) s = after
        { sampled with offset := average, cal := .done, shorted := false } movedEnded)
    ∧ (s.spm.cal = .running → s.spm.calCount = 3 → average < -64 ∨ 63 < average →
      exec (.voltageConversion vbat shunt) s = after { sampled with cal := .failed, shorted := false } movedEnded))

/-- Calibration (R159 to R161): CALIBRATE starts one unless one is RUNNING, which is MODE; an abort, of a mode change in
flight or else as the SPM's part of a CLEAR (where both are on their way a free value says which is the first, and either
may be; R192, log 26), ends a RUNNING one without a new offset and sets CAL_ENDED, and finds nothing otherwise. The CAL_ENDED of a CLEAR's abort
is marked while that CLEAR's clearing of the flags is to come (R192; log 14). A fourth sample taken on its own completes
it (log 9), with its reading cut to the converter's range (log 10). VOLTAGE_CONFIG stores a pair with VLOW at least VCRIT + 3 and leaves code and ceiling as they stand (R157);
CURRENT_CONFIG stores the enable, and a disable makes M invalid (R158); MODE_CONFIG stores the park delay (R164). What
they do not accept is ARG. A refusal's empty payload is the model's choice (log 17). -/
def Obligations.CalibrationAndSettingsAreTaken : Prop :=
  ((∀ (s s1 : State) (n : Nat), Takes .calibrate s n s1 →
    (s1.spm.cal = .running → exec .calibrate s = .next (s1.hand (.blockResult n .mode [])))
    ∧ (s1.spm.cal ≠ .running → exec .calibrate s = .next (({ s1 with
        spm := { s1.spm with cal := .running, calCount := 0, calSum := 0, shorted := true, measured := none } }
          : State).hand (.blockResult n .ok [1]))))
  ∧ (∀ s s1 : State, s.held = false →
    let part := s.ctp.outstanding.find? fun e => e.2.portBlock = some .spm
    let meet := .calibrationAbort ∈ s.handed ∧ part.map (fun e => e.2) = some .calibrationAbort
    let ofClear := .calibrationAbort ∉ s.handed ∨ (meet ∧ Config.clearAbortFirst s.choices = true)
    let s0 := if meet then { s with choices := s.choices + 1 } else s
    (ofClear ∧ TakesPart .calibrationAbort s0 s1) ∨ (¬ ofClear ∧ s1 = s0.take .calibrationAbort) →
    let serial := part.map fun e => e.1
    let before := ofClear ∧ ∀ n, serial = some n → (n, .clearFlags) ∈ s.ctp.outstanding
    (s1.spm.cal = .running →
      (before → exec .calibrationAbort s = .next (({ s1 with
        spm := { s1.spm with cal := .aborted, calCount := 0, calSum := 0, shorted := false }
        endedByClear := s.endedByClear ++ [serial] } : State).hand (.flagSetting 0x8000)))
      ∧ (¬ before → exec .calibrationAbort s = .next (({ s1 with
        spm := { s1.spm with cal := .aborted, calCount := 0, calSum := 0, shorted := false } } : State).hand
          (.flagSetting 0x8000))))
    ∧ (s1.spm.cal ≠ .running → exec .calibrationAbort s = .next s1))
  ∧ (∀ (shunt : Int) (s : State), s.held = false →
    let raw := max (-1024) (min shunt 16383)
    let average := Int.fdiv (s.spm.calSum + raw) 4
    let base := { s.spm with lastRaw := some raw, calSum := s.spm.calSum + raw, calCount := 4, shorted := false }
    (s.spm.cal = .running → s.spm.calCount = 3 → exec (.calibrationCompletion shunt) s =
      .next (({ s.take (.calibrationCompletion shunt) with
        spm := if -64 ≤ average ∧ average ≤ 63 then { base with offset := average, cal := .done }
          else { base with cal := .failed } } : State).hand (.flagSetting 0x8000)))
    ∧ (s.spm.cal ≠ .running ∨ s.spm.calCount ≠ 3 →
      exec (.calibrationCompletion shunt) s = .next (s.take (.calibrationCompletion shunt)))))
  ∧ ((∀ (vlow vcrit : Byte) (s s1 : State) (n : Nat), Takes (.voltageConfig vlow vcrit) s n s1 →
    (vlow.toNat < vcrit.toNat + 3 →
      exec (.voltageConfig vlow vcrit) s = .next (s1.hand (.blockResult n .arg [])))
    ∧ (vcrit.toNat + 3 ≤ vlow.toNat → exec (.voltageConfig vlow vcrit) s = .next (({ s1 with
        spm := { s1.spm with vlow := vlow.toNat, vcrit := vcrit.toNat } } : State).hand
          (.blockResult n .ok [vlow, vcrit]))))
  ∧ (∀ (enable : Byte) (s s1 : State) (n : Nat), Takes (.currentConfig enable) s n s1 →
    (1 < enable.toNat → exec (.currentConfig enable) s = .next (s1.hand (.blockResult n .arg [])))
    ∧ (enable = 0 → exec (.currentConfig enable) s = .next (({ s1 with
        spm := { s1.spm with monitor := false, measured := none } } : State).hand (.blockResult n .ok [0])))
    ∧ (enable = 1 → exec (.currentConfig enable) s = .next (({ s1 with
        spm := { s1.spm with monitor := true } } : State).hand (.blockResult n .ok [1]))))
  ∧ (∀ (delay : Byte) (s s1 : State) (n : Nat), Takes (.modeConfig delay) s n s1 →
    exec (.modeConfig delay) s = .next (({ s1 with mdc := { s1.mdc with parkDelay := delay.toNat } } : State).hand
      (.blockResult n .ok [delay]))))

/-- The ignition is debounced for 50 ms: the timer starts as the raw level comes to differ from the debounced state and
stops as it returns (R163); a level that is no change has no effect. The mode changes of R164 with what each entry hands
its neighbours (R165, R166): RUN entry, PARK_PENDING entry with its delay, and park entry by the debounced ignition with
delay 0, by the delay's expiry and by PARK_NOW, which is MODE in RUN and PARK. MODE_CHANGED is set at each. An
IGN_DEBOUNCE_EXPIRY with the timer stopped and a PARK_DELAY_EXPIRY outside PARK_PENDING have no effect: the model's choice
(log 4). A refusal's empty payload is the model's choice (log 17). -/
def Obligations.IgnitionMovesTheMode : Prop :=
  (∀ (high : Bool) (s : State), s.held = false →
    (high = s.inputs.ign → exec (.ignChange high) s = .next (s.take (.ignChange high)))
    ∧ (high ≠ s.inputs.ign →
      (high ≠ s.mdc.ign → exec (.ignChange high) s = .next { s.take (.ignChange high) with
        inputs := { s.inputs with ign := high }, mdc := { s.mdc with ignTimer := some (ms 50) } })
      ∧ (high = s.mdc.ign → exec (.ignChange high) s = .next { s.take (.ignChange high) with
        inputs := { s.inputs with ign := high }, mdc := { s.mdc with ignTimer := none } })))
  ∧ (∀ s : State, s.held = false →
    let enter := fun (x : State) (m : Mdc) (told : List Instr) =>
      ({ x with mdc := m, handed := x.handed ++ told ++ [.flagSetting 0x4000] } : State)
    let runPart := [Instr.modeRecord .run, .modeReport .run, .runDemandReport true, .calibrationAbort]
    let pendingPart := [Instr.modeRecord .parkPending, .modeReport .parkPending, .calibrationAbort]
    let parkPart := [Instr.parkEntryRefill, .runDemandReport false, .calibrationAbort]
    let settled := { s.mdc with ign := s.inputs.ign, ignTimer := none }
    let x := s.take .ignDebounceExpiry
    (s.mdc.ignTimer.isSome = true →
      (s.inputs.ign = true → s.mdc.mode ≠ .run → exec .ignDebounceExpiry s =
        .next (enter x { settled with mode := .run, parkTimer := none } runPart))
      ∧ (s.inputs.ign = false → s.mdc.mode = .run → 0 < s.mdc.parkDelay → exec .ignDebounceExpiry s =
        .next (enter x { settled with mode := .parkPending, parkTimer := some (seconds s.mdc.parkDelay) } pendingPart))
      ∧ (s.inputs.ign = false → s.mdc.mode = .run → s.mdc.parkDelay = 0 → exec .ignDebounceExpiry s =
        .next (enter x { settled with mode := .park, parkTimer := none } parkPart))
      ∧ ((s.mdc.mode = .run ↔ s.inputs.ign = true) → exec .ignDebounceExpiry s = .next { x with mdc := settled }))
    ∧ (s.mdc.ignTimer = none → exec .ignDebounceExpiry s = .next x)
    ∧ (s.mdc.mode = .parkPending → exec .parkDelayExpiry s =
        .next (enter (s.take .parkDelayExpiry) { s.mdc with mode := .park, parkTimer := none } parkPart))
    ∧ (s.mdc.mode ≠ .parkPending → exec .parkDelayExpiry s = .next (s.take .parkDelayExpiry))
    ∧ (∀ n s1, Takes .parkNow s n s1 →
        (s1.mdc.mode = .parkPending → exec .parkNow s =
          .next ((enter s1 { s1.mdc with mode := .park, parkTimer := none } parkPart).hand (.blockResult n .ok [2])))
        ∧ (s1.mdc.mode ≠ .parkPending → exec .parkNow s = .next (s1.hand (.blockResult n .mode [])))))

/-! ### The body network (06, 09) -/

/-- A filter matches a frame when it is enabled, the identifiers agree under the mask, and the data condition, where
there is one, is met by a byte that the frame carries (R126, R127). -/
def Obligations.FiltersMatchByMaskAndData : Prop :=
  ∀ (x : Filter) (ident : BitVec 11) (bytes : List Byte),
    x.matchesFrame ident bytes = true ↔
      x.enable = true
      ∧ (∀ b : Nat, b < 11 → x.mask.getLsbD b = true → ident.getLsbD b = x.ident.getLsbD b)
      ∧ (∀ c, x.data = some c → ∃ y, bytes[c.index.val]? = some y
          ∧ ∀ b : Nat, b < 8 → c.valueMask.getLsbD b = true → y.getLsbD b = c.value.getLsbD b)

/-- The reception of a valid frame (R169, R170, R128, R173, R174): it is acknowledged, each matching filter gives a wake
event in ascending order, and a data frame of 8 bytes on the service identifier joins the queue, is taken by the
engine where the buffer is EMPTY, or is discarded with SVC_OVERRUN where two are queued. A disabled listener and a
frame in the extended format give nothing; a frame with an error gives an error frame alone. -/
def Obligations.ReceptionWakesAndQueues : Prop :=
  ∀ (f : CanFrame) (s : State), s.held = false →
    let c := Instr.canFrameReceived f
    let bytes := if f.remote then [] else f.data.take (min f.dlc.toNat 8)
    let wakes := ((List.finRange 8).filter fun i => s.bnl.filters[i].matchesFrame f.ident bytes).map
      fun i => Instr.wakeEvent ⟨8 + i.val, by omega⟩
    let joins := f.ident = s.bnl.serviceId ∧ f.remote = false ∧ bytes.length = 8
    let heard := fun (b : Bnl) (told : List Instr) =>
      Host.Outcome.next (φ := Fault) (ρ := Refusal)
        { s with bnl := { b with tx := .acknowledge }, handed := s.handed.erase c ++ wakes ++ told }
    (f.extended = true ∨ s.bnl.enable = false → exec c s = .next { s.take c with bnl := { s.bnl with tx := .silent } })
    ∧ (f.extended = false → s.bnl.enable = true →
      (¬ joins → exec c s = heard s.bnl [])
      ∧ (joins → 2 ≤ s.bnl.queue.length → exec c s = heard s.bnl [.flagSetting 0x0800])
      ∧ (joins → s.bnl.queue.length ≤ 1 → s.bnl.buffer ≠ .empty →
          exec c s = heard { s.bnl with queue := s.bnl.queue ++ [bytes] } [])
      ∧ (joins → s.bnl.queue = [] → s.bnl.buffer = .empty →
        (∀ st, judgeService bytes = .answer st → exec c s =
          heard { s.bnl with buffer := .full
                             answer := some [BitVec.ofNat 8 (statusNumber st), arg8 bytes 0, arg8 bytes 1, 0, 0, 0, 0, 0]
                             queue := [] } [])
        ∧ (∀ op, judgeService bytes = .operation op → exec c s =
          heard { s.bnl with buffer := .reserved, queue := [] } [op])))
    ∧ (exec .canFrameError s = .next { s.take .canFrameError with
        bnl := { s.bnl with tx := if s.bnl.enable then .errorFrame else .silent } })

/-- The decode of a service frame (R175, R203): operation values other than 1 to 4 are UNKNOWN, FIND and PURGE among
them; then a node above 31 is ARG; else the operation goes to the HTM with its fields. And the answer for each return of
the HTM, in its 8 bytes (R176, R203). -/
def Obligations.ServiceFramesAreDecodedAndAnswered : Prop :=
  (∀ op node b2 b3 b4 b5 b6 b7 : Byte,
    let f := [op, node, b2, b3, b4, b5, b6, b7]
    let handle : Handle := { slot := (b2.setWidth 6).toFin, gen := b3.setWidth 4 }
    (op = 0 ∨ 4 < op.toNat → judgeService f = .answer .unknown)
    ∧ (1 ≤ op.toNat → op.toNat ≤ 4 → 31 < node.toNat → judgeService f = .answer .arg)
    ∧ (node.toNat ≤ 31 →
      (op = 1 → judgeService f =
        .operation (.networkRequest node ((b2.setWidth 4) ++ b3) b4 b5 (b6.setWidth 4)))
      ∧ (op = 2 → judgeService f = .operation (.networkRenew node handle b4))
      ∧ (op = 3 → judgeService f = .operation (.networkRelease node handle))
      ∧ (op = 4 → judgeService f = .operation (.networkQuery node handle))))
  ∧ ((∀ (node : Byte) (tag : BitVec 4) (h : Handle) (st : HoldState),
    answerOf (.requestOk node tag h st) =
      [0, 1, node, tag.setWidth 8, BitVec.ofNat 8 h.slot.val, h.gen.setWidth 8,
        (match st with | .scheduled => 1 | .active => 2 | .suspended => 3), 0])
  ∧ (∀ (node : Byte) (tag : BitVec 4) (st : Status),
    answerOf (.requestRefused node tag st) = [BitVec.ofNat 8 (statusNumber st), 1, node, tag.setWidth 8, 0, 0, 0, 0])
  ∧ (∀ (node : Byte) (h : Handle),
    answerOf (.releaseOk node h) = [0, 3, node, BitVec.ofNat 8 h.slot.val, h.gen.setWidth 8, 0, 0, 0])
  ∧ (∀ (op : NetOp) (node : Byte) (h : Handle) (st : Status),
    answerOf (.refused op node h st) =
      [BitVec.ofNat 8 (statusNumber st), (match op with | .request => 1 | .renew => 2 | .release => 3 | .query => 4),
        node, BitVec.ofNat 8 h.slot.val, h.gen.setWidth 8, 0, 0, 0])
  ∧ (∀ (node : Byte) (h : Handle) (x : Hold),
    let time := match x.state with
      | .scheduled => x.countdown.getD 0
      | .active | .suspended => x.remaining.getD 0
    let state : Nat := match x.state with | .scheduled => 1 | .active => 2 | .suspended => 3
    let reason : Nat := match x.reason with | none => 0 | some .tierDrop => 1 | some .notAdmitted => 2
    time < 2 ^ 20 →
      ∃ w : BitVec 24, w.extractLsb' 22 2 = BitVec.ofNat 2 state ∧ w.extractLsb' 20 2 = BitVec.ofNat 2 reason
        ∧ w.extractLsb' 0 20 = BitVec.ofNat 20 time
        ∧ answerOf (.renewOk node h x) = [0, 2, node, BitVec.ofNat 8 h.slot.val, h.gen.setWidth 8,
            w.extractLsb' 16 8, w.extractLsb' 8 8, w.extractLsb' 0 8]
        ∧ answerOf (.queryOk node h x) = [0, 4, node, BitVec.ofNat 8 h.slot.val, h.gen.setWidth 8,
            w.extractLsb' 16 8, w.extractLsb' 8 8, w.extractLsb' 0 8]))

/-- The answer buffer (R174, R176 to R178): a return fills a RESERVED buffer, or empties it under the cancel mark; a FULL
answer makes one attempt under the answer identifier; the attempt's end empties the buffer, and a loss sets
SVC_ANSWER_LOST unless the buffer is marked; an emptied buffer with nothing queued stays EMPTY, and with frames queued
the engine takes the oldest, both after an attempt and after a return under the mark. A return outside RESERVED has no
effect (log 4); what stands on CANTX is log 16. CLEAR's part empties the queue, discards a FULL answer and marks the rest. SERVICE_CONFIG
(R171, R172): an enable other than 0 and 1, an identifier above 0x7FF or two equal identifiers are ARG; otherwise the
three settings are stored, and a disable does the same to queue and buffer. A refusal's empty payload is the model's
choice (log 17). -/
def Obligations.AnswersAreHeldSentAndLost : Prop :=
  (∀ s : State, s.held = false →
    let emptied := { s.bnl with buffer := .empty, cancel := false, answer := none, sendingId := none }
    (∀ r : NetReturn, s.bnl.buffer = .reserved →
      (s.bnl.cancel = false → exec (.htmReturn r) s =
        .next { s.take (.htmReturn r) with bnl := { s.bnl with buffer := .full, answer := some (answerOf r) } })
      ∧ (s.bnl.cancel = true → s.bnl.queue = [] →
        exec (.htmReturn r) s = .next { s.take (.htmReturn r) with bnl := emptied })
      ∧ (s.bnl.cancel = true → ∀ f rest op, s.bnl.queue = f :: rest → judgeService f = .operation op →
        exec (.htmReturn r) s = .next { s with
          bnl := { emptied with queue := rest, buffer := .reserved }
          handed := s.handed.erase (.htmReturn r) ++ [op] })
      ∧ (s.bnl.cancel = true → ∀ f rest st, s.bnl.queue = f :: rest → judgeService f = .answer st →
        exec (.htmReturn r) s = .next { s.take (.htmReturn r) with
          bnl := { emptied with
            queue := rest, buffer := .full
            answer := some [BitVec.ofNat 8 (statusNumber st), arg8 f 0, arg8 f 1, 0, 0, 0, 0, 0] } }))
    ∧ (∀ r : NetReturn, s.bnl.buffer ≠ .reserved → exec (.htmReturn r) s = .next (s.take (.htmReturn r)))
    ∧ (∀ a, s.bnl.buffer = .full → s.bnl.enable = true → s.bnl.answer = some a →
      exec .answerAttemptStart s = .next { s.take .answerAttemptStart with
        bnl := { s.bnl with buffer := .sending, sendingId := some s.bnl.answerId, tx := .answer s.bnl.answerId a } })
    ∧ (∀ how : AttemptEnd, s.bnl.buffer = .sending →
      let lost := if how ≠ .sent ∧ s.bnl.cancel = false then [Instr.flagSetting 0x1000] else []
      let quiet := { emptied with tx := if how = .transmitError then .errorFrame else .silent }
      (s.bnl.queue = [] → exec (.answerAttemptEnd how) s =
        .next { s with bnl := quiet, handed := s.handed.erase (.answerAttemptEnd how) ++ lost })
      ∧ (∀ f rest op, s.bnl.queue = f :: rest → judgeService f = .operation op →
        exec (.answerAttemptEnd how) s =
          .next { s with bnl := { quiet with queue := rest, buffer := .reserved }
                         handed := s.handed.erase (.answerAttemptEnd how) ++ lost ++ [op] })
      ∧ (∀ f rest st, s.bnl.queue = f :: rest → judgeService f = .answer st →
        exec (.answerAttemptEnd how) s =
          .next { s with
            bnl := { quiet with
              queue := rest, buffer := .full
              answer := some [BitVec.ofNat 8 (statusNumber st), arg8 f 0, arg8 f 1, 0, 0, 0, 0, 0] }
            handed := s.handed.erase (.answerAttemptEnd how) ++ lost }))
    ∧ ∀ s1, TakesPart .clearService s s1 →
      (s1.bnl.buffer = .reserved ∨ s1.bnl.buffer = .sending → exec .clearService s =
        .next { s1 with bnl := { s1.bnl with queue := [], cancel := true } })
      ∧ (s1.bnl.buffer = .full → exec .clearService s = .next { s1 with bnl := { s1.bnl with
          buffer := .empty, cancel := false, answer := none, sendingId := none, queue := [] } })
      ∧ (s1.bnl.buffer = .empty → exec .clearService s = .next { s1 with bnl := { s1.bnl with queue := [] } }))
  ∧ (∀ (enable : Byte) (service answer : BitVec 16) (s s1 : State) (n : Nat),
    Takes (.serviceConfig enable service answer) s n s1 →
    let c := Instr.serviceConfig enable service answer
    (1 < enable.toNat ∨ 0x7FF < service.toNat ∨ 0x7FF < answer.toNat ∨ service = answer →
      exec c s = .next (s1.hand (.blockResult n .arg [])))
    ∧ (enable.toNat ≤ 1 → service.toNat ≤ 0x7FF → answer.toNat ≤ 0x7FF → service ≠ answer →
      let stored := { s1.bnl with
        enable := enable == 1, serviceId := service.setWidth 11, answerId := answer.setWidth 11 }
      ∃ b : Bnl, exec c s = .next (({ s1 with bnl := b } : State).hand (.blockResult n .ok
          ([enable] ++ beBytes 2 service.toNat ++ beBytes 2 answer.toNat ++ beBytes 4 b.queue.length
            ++ [(match b.buffer with | .empty => 0 | .reserved => 1 | .full => 2 | .sending => 3 : Byte)])))
        ∧ (s1.bnl.enable = false ∨ enable = 1 → b = stored)
        ∧ (s1.bnl.enable = true → enable = 0 →
          (s1.bnl.buffer = .empty → b = { stored with queue := [] })
          ∧ (s1.bnl.buffer = .full → b = { stored with
              queue := [], buffer := .empty, cancel := false, answer := none, sendingId := none })
          ∧ (s1.bnl.buffer = .reserved ∨ s1.bnl.buffer = .sending → b = { stored with queue := [], cancel := true }))))

/-! ### Events (11) -/

/-- The flags are numbered as R202 numbers them, and a setting of several is the set of their bits. Settings, EVENTS,
EVENT_ENABLE and the EVU's part of a CLEAR (R191, R193 to R196): flags become pending, EVENTS returns those pending before
and clears those whose keep bit is 0, levels and code are stored or refused with ARG, ATTN is low exactly while a pending
flag has level ATTN or WAKE_HOST, and a transition at level WAKE_HOST makes one request for the owner-47 hold.
The CAL_ENDED of a CLEAR's abort taken before its clearing is set and then cleared (R192): marked and still in flight, it
is taken with the clearing (log 14). Every other setting in flight stays so, and is taken after the clearing. A refusal's empty payload is the model's choice (log 17). -/
def Obligations.FlagsDriveAttentionAndWakeTheHost : Prop :=
  ([Flag.wakeAccepted, .wakeRefused, .holdExpired, .holdSuspended, .holdResumed, .holdCapped, .holdEvicted,
    .tierChanged, .domainFault, .domainLatched, .demandUnmet, .svcOverrun, .svcAnswerLost, .voltageCeiling,
    .modeChanged, .calEnded].map Flag.bit = List.range 16
  ∧ ∀ (fs : List Flag) (n : Fin 16), (flagsOf fs).getLsbD n.val = true ↔ ∃ f ∈ fs, f.bit = n.val)
  ∧ ((∀ (flags : FlagSet) (s : State), s.held = false →
    let after := s.evu.pending ||| flags
    ∃ t, exec (.flagSetting flags) s = .next t
      ∧ t = { s with evu := { s.evu with pending := after, attnLow := t.evu.attnLow }, handed := t.handed,
                      endedByClear := if flags = 0x8000 then s.endedByClear.tail else s.endedByClear }
      ∧ (t.evu.attnLow = true ↔ ∃ n : Fin 16, after.getLsbD n.val = true ∧ s.evu.levels[n] ≠ .off)
      ∧ ((∃ n : Fin 16, flags.getLsbD n.val = true ∧ s.evu.pending.getLsbD n.val = false
            ∧ s.evu.levels[n] = .wakeHost) →
          t.handed = s.handed.erase (.flagSetting flags) ++ [.owner47Request s.evu.wakeCode])
      ∧ ((∀ n : Fin 16, flags.getLsbD n.val = true → s.evu.pending.getLsbD n.val = true
            ∨ s.evu.levels[n] ≠ .wakeHost) →
          t.handed = s.handed.erase (.flagSetting flags)))
  ∧ (∀ (keep : FlagSet) (s s1 : State) (n : Nat), Takes (.events keep) s n s1 →
    ∃ t, exec (.events keep) s = .next t
      ∧ t = { s1 with
          evu := { s1.evu with pending := s1.evu.pending &&& keep, attnLow := t.evu.attnLow }
          handed := s1.handed ++ [.blockResult n .ok (beBytes 2 s1.evu.pending.toNat)] }
      ∧ (t.evu.attnLow = true ↔ ∃ f : Fin 16, (s1.evu.pending &&& keep).getLsbD f.val = true
          ∧ s1.evu.levels[f] ≠ .off))
  ∧ (∀ (levels : BitVec 128) (code : Byte) (s s1 : State) (n : Nat), Takes (.eventEnable levels code) s n s1 →
    let level := fun (f : Fin 16) => levels.extractLsb' (8 * (15 - f.val)) 8
    ((∃ f : Fin 16, 2 < (level f).toNat) →
      exec (.eventEnable levels code) s = .next (s1.hand (.blockResult n .arg [])))
    ∧ ((∀ f : Fin 16, (level f).toNat ≤ 2) →
      ∃ t, exec (.eventEnable levels code) s = .next t
        ∧ t = { s1 with
            evu := { t.evu with pending := s1.evu.pending, wakeCode := clampCode code }
            handed := s1.handed ++ [.blockResult n .ok
              ((List.finRange 16).map level ++ [BitVec.ofNat 8 (clampCode code).val])] }
        ∧ (∀ f : Fin 16, t.evu.levels[f] =
            if level f = 0 then .off else if level f = 1 then .attn else .wakeHost)
        ∧ (t.evu.attnLow = true ↔ ∃ f : Fin 16, s1.evu.pending.getLsbD f.val = true ∧ level f ≠ 0)))
  ∧ (∀ s s1 : State, TakesPart .clearFlags s s1 →
    let cleared := { s1 with evu := { s1.evu with pending := 0, attnLow := false } }
    let ofClear := (s.ctp.outstanding.find? fun e => e.2.portBlock = some .evu).map fun e => e.1
    (ofClear ∉ s.endedByClear → exec .clearFlags s = .next cleared)
    ∧ (ofClear ∈ s.endedByClear → exec .clearFlags s = .next { cleared with
        endedByClear := s.endedByClear.filter (· ≠ ofClear)
        handed := s.handed.diff (List.replicate (s.endedByClear.count ofClear) (.flagSetting 0x8000))
          ++ (if s1.evu.pending.getLsbD 15 = false ∧ s1.evu.levels[(15 : Fin 16)] = .wakeHost
              then [.owner47Request s1.evu.wakeCode] else []) })))

/-! ### What software reads -/

/-- The status commands answer with what stands when they are taken and change nothing (R74, R78, R104, R136, R162, R168):
each value in the order of its rule and the encoding of R199 and R200, most significant byte first, with the status codes
of R199. A refusal's empty payload is the model's choice (log 17). -/
def Obligations.StatusCommandsReadWhatStands : Prop :=
  (∀ n x : Nat, (beBytes n x).length = n
    ∧ ∀ k, k < n → (beBytes n x)[k]? = some (BitVec.ofNat 8 (x / 256 ^ (n - 1 - k))))
  ∧ ([Status.ok, .idle, .unknown, .framing, .check, .arg, .stale, .notOwner, .full, .ownerLimit, .denied, .mode].map
      statusNumber = List.range 12)
  ∧ (∀ (s s1 : State) (n : Nat), Takes .budgetStatus s n s1 →
    exec .budgetStatus s = .next (s1.hand (.blockResult n .ok
      (beBytes 2 s1.cbu.allowance ++ beBytes 4 s1.cbu.remaining ++ beBytes 4 s1.cbu.fraction
        ++ [BitVec.ofNat 8 s1.cbu.tier.rank, BitVec.ofNat 8 s1.tau.effective.rank, BitVec.ofNat 8 s1.tau.ceiling.rank]
        ++ beBytes 2 s1.cbu.quiescent ++ [BitVec.ofNat 8 s1.cbu.blend] ++ beBytes 2 s1.cbu.tg ++ beBytes 2 s1.cbu.ta
        ++ beBytes 2 s1.cbu.tr
        ++ (match s1.cbu.lastD with | some d => 1 :: beBytes 4 d | none => ([0, 0, 0, 0, 0] : List Byte))
        ++ (match s1.cbu.lastM with | .value m => 1 :: beBytes 4 m | .invalid => ([2, 0, 0, 0, 0] : List Byte) | .absent => ([0, 0, 0, 0, 0] : List Byte))
        ++ (match s1.cbu.lastE with | some e => 1 :: beBytes 4 e | none => ([0, 0, 0, 0, 0] : List Byte))
        ++ beBytes 4 s1.cbu.parkSeconds ++ beBytes 4 s1.cbu.debited))))
  ∧ (∀ (domain : Byte) (s s1 : State) (n : Nat), Takes (.domainStatus domain) s n s1 →
    (11 < domain.toNat → exec (.domainStatus domain) s = .next (s1.hand (.blockResult n .arg [])))
    ∧ ∀ i : Fin 12, domain.toNat = i.val →
      let d := s1.dsc.domains[i]
      let bit := fun (b : Bool) => if b then (1 : Byte) else 0
      exec (.domainStatus domain) s = .next (s1.hand (.blockResult n .ok
        ([(match d.state with
          | .off => 0 | .waking => 1 | .on => 2 | .draining => 3 | .faulted => 4 | .latched => 5 : Byte)]
          ++ beBytes 4 d.attempts ++ [bit d.enable, bit d.runEnable] ++ beBytes 2 d.draw
          ++ [BitVec.ofNat 8 d.settle, BitVec.ofNat 8 d.runDown, bit (s1.dsc.holdDemand.getLsbD i.val),
            bit (s1.dsc.runDemand && d.runEnable), bit s1.dsc.masterOpen]))))
  ∧ (∀ (s s1 : State) (n : Nat), Takes .clockStatus s n s1 →
    exec .clockStatus s = .next (s1.hand (.blockResult n .ok
      ([BitVec.ofNat 8 s1.tmb.day] ++ beBytes 2 s1.tmb.minute
        ++ [BitVec.ofNat 8 s1.tmb.second, (if s1.tmb.unset then 1 else 0 : Byte)]))))
  ∧ (∀ (s s1 : State) (n : Nat), Takes .supplyStatus s n s1 →
    exec .supplyStatus s = .next (s1.hand (.blockResult n .ok
      ((match s1.spm.code with | some v => 1 :: beBytes 4 v | none => ([0, 0, 0, 0, 0] : List Byte))
        ++ [BitVec.ofNat 8 s1.spm.vlow, BitVec.ofNat 8 s1.spm.vcrit, BitVec.ofNat 8 s1.spm.ceiling.rank,
          (if s1.spm.monitor then 1 else 0 : Byte)]
        ++ (match s1.spm.lastRaw with | some x => 1 :: beBytes 4 (BitVec.ofInt 32 x).toNat | none => ([0, 0, 0, 0, 0] : List Byte))
        ++ beBytes 4 (BitVec.ofInt 32 s1.spm.offset).toNat
        ++ (match s1.spm.measured with | some m => 1 :: beBytes 4 m | none => ([2, 0, 0, 0, 0] : List Byte))
        ++ [(match s1.spm.cal with | .never => 0 | .running => 1 | .done => 2 | .failed => 3 | .aborted => 4 : Byte)]
        ++ beBytes 4 s1.spm.calCount))))
  ∧ (∀ (s s1 : State) (n : Nat), Takes .modeStatus s n s1 →
    exec .modeStatus s = .next (s1.hand (.blockResult n .ok
      ([(match s1.mdc.mode with | .run => 0 | .parkPending => 1 | .park => 2 : Byte),
          (if s1.mdc.ign then 1 else 0 : Byte), (if s1.inputs.ign then 1 else 0 : Byte),
          BitVec.ofNat 8 s1.mdc.parkDelay]
        ++ (match s1.mdc.mode, s1.mdc.parkTimer with
          | .parkPending, some u => 1 :: beBytes 4 ((u + 4095999) / 4096000)
          | _, _ => ([0, 0, 0, 0, 0] : List Byte))))))
  ∧ (∀ (source : Byte) (s s1 : State) (n : Nat), Takes (.sourceStatus source) s n s1 →
    (15 < source.toNat → exec (.sourceStatus source) s = .next (s1.hand (.blockResult n .arg [])))
    ∧ ∀ i : Fin 16, source.toNat = i.val →
      let x := s1.wsu.sources[i]
      let bit := fun (b : Bool) => if b then (1 : Byte) else 0
      let holds := fun (enable outside inside : Bool) => bit (enable && (xor outside inside))
      let window := fun (w : ClockWindow) =>
        [bit w.enable, bit w.outside] ++ beBytes 2 w.start ++ beBytes 2 w.stop ++ [BitVec.ofNat 8 w.days.toNat]
      let settings := [bit x.armOnce, bit x.armAlways, BitVec.ofNat 8 x.template.val, bit x.logicAnd]
        ++ window x.winA ++ window x.winB
        ++ [bit x.winT.enable, bit x.winT.outside, BitVec.ofNat 8 x.winT.minTier.rank]
      let judged := [(match x.last with
            | .none => 0 | .accepted => 1 | .coalesced => 2 | .window => 3 | .disarmed => 4 | .limit => 5
            | .full => 6 : Byte),
          holds x.winA.enable x.winA.outside (x.winA.inside s1.tmb),
          holds x.winB.enable x.winB.outside (x.winB.inside s1.tmb),
          holds x.winT.enable x.winT.outside (x.winT.inside s1.tau.effective),
          bit (x.qualifies s1.tmb s1.tau.effective)]
      (∀ k : Fin 8, k.val = i.val →
        let p := s1.wsu.pins[k]
        exec (.sourceStatus source) s = .next (s1.hand (.blockResult n .ok (settings
          ++ [1, bit p.activeHigh, 1, BitVec.ofNat 8 p.debounce,
              (match p.state with | .ready => 0 | .debouncing => 1 | .held => 2 : Byte),
              bit (s1.inputs.wake.getLsbD k.val == p.activeHigh), bit p.timer.isSome]
          ++ judged))))
      ∧ (7 < i.val →
        exec (.sourceStatus source) s = .next (s1.hand (.blockResult n .ok (settings ++ [0, 0, 0, 0] ++ judged)))))
end

