-- ==== Sys2Proof/Laws/State.lean ====
section
/-! SUPPORT. The small lemmas of the state updates: one per field and update, true by unfolding, for `simp`. -/

namespace Sys2Proof.Machine

variable (s : State)

/-! ### `withHtm` -/

@[simp] theorem State.withHtm_held (t : Htm) : (s.withHtm t).held = s.held := rfl
@[simp] theorem State.withHtm_htm (t : Htm) : (s.withHtm t).htm = t := rfl
@[simp] theorem State.withHtm_tau (t : Htm) : (s.withHtm t).tau = s.tau := rfl
@[simp] theorem State.withHtm_cbu (t : Htm) : (s.withHtm t).cbu = s.cbu := rfl
@[simp] theorem State.withHtm_dsc (t : Htm) : (s.withHtm t).dsc = s.dsc := rfl
@[simp] theorem State.withHtm_tmb (t : Htm) : (s.withHtm t).tmb = s.tmb := rfl
@[simp] theorem State.withHtm_wsu (t : Htm) : (s.withHtm t).wsu = s.wsu := rfl
@[simp] theorem State.withHtm_tpe (t : Htm) : (s.withHtm t).tpe = s.tpe := rfl
@[simp] theorem State.withHtm_spm (t : Htm) : (s.withHtm t).spm = s.spm := rfl
@[simp] theorem State.withHtm_mdc (t : Htm) : (s.withHtm t).mdc = s.mdc := rfl
@[simp] theorem State.withHtm_bnl (t : Htm) : (s.withHtm t).bnl = s.bnl := rfl
@[simp] theorem State.withHtm_ctp (t : Htm) : (s.withHtm t).ctp = s.ctp := rfl
@[simp] theorem State.withHtm_evu (t : Htm) : (s.withHtm t).evu = s.evu := rfl
@[simp] theorem State.withHtm_inputs (t : Htm) : (s.withHtm t).inputs = s.inputs := rfl
@[simp] theorem State.withHtm_handed (t : Htm) : (s.withHtm t).handed = s.handed := rfl
@[simp] theorem State.withHtm_endedByClear (t : Htm) : (s.withHtm t).endedByClear = s.endedByClear := rfl
@[simp] theorem State.withHtm_readings (t : Htm) : (s.withHtm t).readings = s.readings := rfl
@[simp] theorem State.withHtm_choices (t : Htm) : (s.withHtm t).choices = s.choices := rfl
@[simp] theorem State.withHtm_pending (t : Htm) : (s.withHtm t).pending = s.pending := rfl

/-! ### `withBnl` -/

@[simp] theorem State.withBnl_held (b : Bnl) : (s.withBnl b).held = s.held := rfl
@[simp] theorem State.withBnl_htm (b : Bnl) : (s.withBnl b).htm = s.htm := rfl
@[simp] theorem State.withBnl_tau (b : Bnl) : (s.withBnl b).tau = s.tau := rfl
@[simp] theorem State.withBnl_cbu (b : Bnl) : (s.withBnl b).cbu = s.cbu := rfl
@[simp] theorem State.withBnl_dsc (b : Bnl) : (s.withBnl b).dsc = s.dsc := rfl
@[simp] theorem State.withBnl_tmb (b : Bnl) : (s.withBnl b).tmb = s.tmb := rfl
@[simp] theorem State.withBnl_wsu (b : Bnl) : (s.withBnl b).wsu = s.wsu := rfl
@[simp] theorem State.withBnl_tpe (b : Bnl) : (s.withBnl b).tpe = s.tpe := rfl
@[simp] theorem State.withBnl_spm (b : Bnl) : (s.withBnl b).spm = s.spm := rfl
@[simp] theorem State.withBnl_mdc (b : Bnl) : (s.withBnl b).mdc = s.mdc := rfl
@[simp] theorem State.withBnl_bnl (b : Bnl) : (s.withBnl b).bnl = b := rfl
@[simp] theorem State.withBnl_ctp (b : Bnl) : (s.withBnl b).ctp = s.ctp := rfl
@[simp] theorem State.withBnl_evu (b : Bnl) : (s.withBnl b).evu = s.evu := rfl
@[simp] theorem State.withBnl_inputs (b : Bnl) : (s.withBnl b).inputs = s.inputs := rfl
@[simp] theorem State.withBnl_handed (b : Bnl) : (s.withBnl b).handed = s.handed := rfl
@[simp] theorem State.withBnl_endedByClear (b : Bnl) : (s.withBnl b).endedByClear = s.endedByClear := rfl
@[simp] theorem State.withBnl_readings (b : Bnl) : (s.withBnl b).readings = s.readings := rfl
@[simp] theorem State.withBnl_choices (b : Bnl) : (s.withBnl b).choices = s.choices := rfl
@[simp] theorem State.withBnl_pending (b : Bnl) : (s.withBnl b).pending = s.pending := rfl

/-! ### `withCtp` -/

@[simp] theorem State.withCtp_held (p : Ctp) : (s.withCtp p).held = s.held := rfl
@[simp] theorem State.withCtp_htm (p : Ctp) : (s.withCtp p).htm = s.htm := rfl
@[simp] theorem State.withCtp_tau (p : Ctp) : (s.withCtp p).tau = s.tau := rfl
@[simp] theorem State.withCtp_cbu (p : Ctp) : (s.withCtp p).cbu = s.cbu := rfl
@[simp] theorem State.withCtp_dsc (p : Ctp) : (s.withCtp p).dsc = s.dsc := rfl
@[simp] theorem State.withCtp_tmb (p : Ctp) : (s.withCtp p).tmb = s.tmb := rfl
@[simp] theorem State.withCtp_wsu (p : Ctp) : (s.withCtp p).wsu = s.wsu := rfl
@[simp] theorem State.withCtp_tpe (p : Ctp) : (s.withCtp p).tpe = s.tpe := rfl
@[simp] theorem State.withCtp_spm (p : Ctp) : (s.withCtp p).spm = s.spm := rfl
@[simp] theorem State.withCtp_mdc (p : Ctp) : (s.withCtp p).mdc = s.mdc := rfl
@[simp] theorem State.withCtp_bnl (p : Ctp) : (s.withCtp p).bnl = s.bnl := rfl
@[simp] theorem State.withCtp_ctp (p : Ctp) : (s.withCtp p).ctp = p := rfl
@[simp] theorem State.withCtp_evu (p : Ctp) : (s.withCtp p).evu = s.evu := rfl
@[simp] theorem State.withCtp_inputs (p : Ctp) : (s.withCtp p).inputs = s.inputs := rfl
@[simp] theorem State.withCtp_handed (p : Ctp) : (s.withCtp p).handed = s.handed := rfl
@[simp] theorem State.withCtp_endedByClear (p : Ctp) : (s.withCtp p).endedByClear = s.endedByClear := rfl
@[simp] theorem State.withCtp_readings (p : Ctp) : (s.withCtp p).readings = s.readings := rfl
@[simp] theorem State.withCtp_choices (p : Ctp) : (s.withCtp p).choices = s.choices := rfl
@[simp] theorem State.withCtp_pending (p : Ctp) : (s.withCtp p).pending = s.pending := rfl

/-! ### `withEvu` -/

@[simp] theorem State.withEvu_held (e : Evu) : (s.withEvu e).held = s.held := rfl
@[simp] theorem State.withEvu_htm (e : Evu) : (s.withEvu e).htm = s.htm := rfl
@[simp] theorem State.withEvu_tau (e : Evu) : (s.withEvu e).tau = s.tau := rfl
@[simp] theorem State.withEvu_cbu (e : Evu) : (s.withEvu e).cbu = s.cbu := rfl
@[simp] theorem State.withEvu_dsc (e : Evu) : (s.withEvu e).dsc = s.dsc := rfl
@[simp] theorem State.withEvu_tmb (e : Evu) : (s.withEvu e).tmb = s.tmb := rfl
@[simp] theorem State.withEvu_wsu (e : Evu) : (s.withEvu e).wsu = s.wsu := rfl
@[simp] theorem State.withEvu_tpe (e : Evu) : (s.withEvu e).tpe = s.tpe := rfl
@[simp] theorem State.withEvu_spm (e : Evu) : (s.withEvu e).spm = s.spm := rfl
@[simp] theorem State.withEvu_mdc (e : Evu) : (s.withEvu e).mdc = s.mdc := rfl
@[simp] theorem State.withEvu_bnl (e : Evu) : (s.withEvu e).bnl = s.bnl := rfl
@[simp] theorem State.withEvu_ctp (e : Evu) : (s.withEvu e).ctp = s.ctp := rfl
@[simp] theorem State.withEvu_evu (e : Evu) : (s.withEvu e).evu = e := rfl
@[simp] theorem State.withEvu_inputs (e : Evu) : (s.withEvu e).inputs = s.inputs := rfl
@[simp] theorem State.withEvu_handed (e : Evu) : (s.withEvu e).handed = s.handed := rfl
@[simp] theorem State.withEvu_endedByClear (e : Evu) : (s.withEvu e).endedByClear = s.endedByClear := rfl
@[simp] theorem State.withEvu_readings (e : Evu) : (s.withEvu e).readings = s.readings := rfl
@[simp] theorem State.withEvu_choices (e : Evu) : (s.withEvu e).choices = s.choices := rfl
@[simp] theorem State.withEvu_pending (e : Evu) : (s.withEvu e).pending = s.pending := rfl

/-! ### `withMdc` -/

@[simp] theorem State.withMdc_held (m : Mdc) : (s.withMdc m).held = s.held := rfl
@[simp] theorem State.withMdc_htm (m : Mdc) : (s.withMdc m).htm = s.htm := rfl
@[simp] theorem State.withMdc_tau (m : Mdc) : (s.withMdc m).tau = s.tau := rfl
@[simp] theorem State.withMdc_cbu (m : Mdc) : (s.withMdc m).cbu = s.cbu := rfl
@[simp] theorem State.withMdc_dsc (m : Mdc) : (s.withMdc m).dsc = s.dsc := rfl
@[simp] theorem State.withMdc_tmb (m : Mdc) : (s.withMdc m).tmb = s.tmb := rfl
@[simp] theorem State.withMdc_wsu (m : Mdc) : (s.withMdc m).wsu = s.wsu := rfl
@[simp] theorem State.withMdc_tpe (m : Mdc) : (s.withMdc m).tpe = s.tpe := rfl
@[simp] theorem State.withMdc_spm (m : Mdc) : (s.withMdc m).spm = s.spm := rfl
@[simp] theorem State.withMdc_mdc (m : Mdc) : (s.withMdc m).mdc = m := rfl
@[simp] theorem State.withMdc_bnl (m : Mdc) : (s.withMdc m).bnl = s.bnl := rfl
@[simp] theorem State.withMdc_ctp (m : Mdc) : (s.withMdc m).ctp = s.ctp := rfl
@[simp] theorem State.withMdc_evu (m : Mdc) : (s.withMdc m).evu = s.evu := rfl
@[simp] theorem State.withMdc_inputs (m : Mdc) : (s.withMdc m).inputs = s.inputs := rfl
@[simp] theorem State.withMdc_handed (m : Mdc) : (s.withMdc m).handed = s.handed := rfl
@[simp] theorem State.withMdc_endedByClear (m : Mdc) : (s.withMdc m).endedByClear = s.endedByClear := rfl
@[simp] theorem State.withMdc_readings (m : Mdc) : (s.withMdc m).readings = s.readings := rfl
@[simp] theorem State.withMdc_choices (m : Mdc) : (s.withMdc m).choices = s.choices := rfl
@[simp] theorem State.withMdc_pending (m : Mdc) : (s.withMdc m).pending = s.pending := rfl

/-! ### `withPin` -/

@[simp] theorem State.withPin_held (i : Fin 8) (p : Pin) : (s.withPin i p).held = s.held := rfl
@[simp] theorem State.withPin_htm (i : Fin 8) (p : Pin) : (s.withPin i p).htm = s.htm := rfl
@[simp] theorem State.withPin_tau (i : Fin 8) (p : Pin) : (s.withPin i p).tau = s.tau := rfl
@[simp] theorem State.withPin_cbu (i : Fin 8) (p : Pin) : (s.withPin i p).cbu = s.cbu := rfl
@[simp] theorem State.withPin_dsc (i : Fin 8) (p : Pin) : (s.withPin i p).dsc = s.dsc := rfl
@[simp] theorem State.withPin_tmb (i : Fin 8) (p : Pin) : (s.withPin i p).tmb = s.tmb := rfl
@[simp] theorem State.withPin_wsu (i : Fin 8) (p : Pin) : (s.withPin i p).wsu = { s.wsu with pins := s.wsu.pins.set i p } := rfl
@[simp] theorem State.withPin_tpe (i : Fin 8) (p : Pin) : (s.withPin i p).tpe = s.tpe := rfl
@[simp] theorem State.withPin_spm (i : Fin 8) (p : Pin) : (s.withPin i p).spm = s.spm := rfl
@[simp] theorem State.withPin_mdc (i : Fin 8) (p : Pin) : (s.withPin i p).mdc = s.mdc := rfl
@[simp] theorem State.withPin_bnl (i : Fin 8) (p : Pin) : (s.withPin i p).bnl = s.bnl := rfl
@[simp] theorem State.withPin_ctp (i : Fin 8) (p : Pin) : (s.withPin i p).ctp = s.ctp := rfl
@[simp] theorem State.withPin_evu (i : Fin 8) (p : Pin) : (s.withPin i p).evu = s.evu := rfl
@[simp] theorem State.withPin_inputs (i : Fin 8) (p : Pin) : (s.withPin i p).inputs = s.inputs := rfl
@[simp] theorem State.withPin_handed (i : Fin 8) (p : Pin) : (s.withPin i p).handed = s.handed := rfl
@[simp] theorem State.withPin_endedByClear (i : Fin 8) (p : Pin) : (s.withPin i p).endedByClear = s.endedByClear := rfl
@[simp] theorem State.withPin_readings (i : Fin 8) (p : Pin) : (s.withPin i p).readings = s.readings := rfl
@[simp] theorem State.withPin_choices (i : Fin 8) (p : Pin) : (s.withPin i p).choices = s.choices := rfl
@[simp] theorem State.withPin_pending (i : Fin 8) (p : Pin) : (s.withPin i p).pending = s.pending := rfl

/-! ### `withSource` -/

@[simp] theorem State.withSource_held (i : Fin 16) (x : Source) : (s.withSource i x).held = s.held := rfl
@[simp] theorem State.withSource_htm (i : Fin 16) (x : Source) : (s.withSource i x).htm = s.htm := rfl
@[simp] theorem State.withSource_tau (i : Fin 16) (x : Source) : (s.withSource i x).tau = s.tau := rfl
@[simp] theorem State.withSource_cbu (i : Fin 16) (x : Source) : (s.withSource i x).cbu = s.cbu := rfl
@[simp] theorem State.withSource_dsc (i : Fin 16) (x : Source) : (s.withSource i x).dsc = s.dsc := rfl
@[simp] theorem State.withSource_tmb (i : Fin 16) (x : Source) : (s.withSource i x).tmb = s.tmb := rfl
@[simp] theorem State.withSource_wsu (i : Fin 16) (x : Source) : (s.withSource i x).wsu = { s.wsu with sources := s.wsu.sources.set i x } := rfl
@[simp] theorem State.withSource_tpe (i : Fin 16) (x : Source) : (s.withSource i x).tpe = s.tpe := rfl
@[simp] theorem State.withSource_spm (i : Fin 16) (x : Source) : (s.withSource i x).spm = s.spm := rfl
@[simp] theorem State.withSource_mdc (i : Fin 16) (x : Source) : (s.withSource i x).mdc = s.mdc := rfl
@[simp] theorem State.withSource_bnl (i : Fin 16) (x : Source) : (s.withSource i x).bnl = s.bnl := rfl
@[simp] theorem State.withSource_ctp (i : Fin 16) (x : Source) : (s.withSource i x).ctp = s.ctp := rfl
@[simp] theorem State.withSource_evu (i : Fin 16) (x : Source) : (s.withSource i x).evu = s.evu := rfl
@[simp] theorem State.withSource_inputs (i : Fin 16) (x : Source) : (s.withSource i x).inputs = s.inputs := rfl
@[simp] theorem State.withSource_handed (i : Fin 16) (x : Source) : (s.withSource i x).handed = s.handed := rfl
@[simp] theorem State.withSource_endedByClear (i : Fin 16) (x : Source) : (s.withSource i x).endedByClear = s.endedByClear := rfl
@[simp] theorem State.withSource_readings (i : Fin 16) (x : Source) : (s.withSource i x).readings = s.readings := rfl
@[simp] theorem State.withSource_choices (i : Fin 16) (x : Source) : (s.withSource i x).choices = s.choices := rfl
@[simp] theorem State.withSource_pending (i : Fin 16) (x : Source) : (s.withSource i x).pending = s.pending := rfl

/-! ### `handAll` -/

@[simp] theorem State.handAll_held (cs : List Instr) : (s.handAll cs).held = s.held := rfl
@[simp] theorem State.handAll_htm (cs : List Instr) : (s.handAll cs).htm = s.htm := rfl
@[simp] theorem State.handAll_tau (cs : List Instr) : (s.handAll cs).tau = s.tau := rfl
@[simp] theorem State.handAll_cbu (cs : List Instr) : (s.handAll cs).cbu = s.cbu := rfl
@[simp] theorem State.handAll_dsc (cs : List Instr) : (s.handAll cs).dsc = s.dsc := rfl
@[simp] theorem State.handAll_tmb (cs : List Instr) : (s.handAll cs).tmb = s.tmb := rfl
@[simp] theorem State.handAll_wsu (cs : List Instr) : (s.handAll cs).wsu = s.wsu := rfl
@[simp] theorem State.handAll_tpe (cs : List Instr) : (s.handAll cs).tpe = s.tpe := rfl
@[simp] theorem State.handAll_spm (cs : List Instr) : (s.handAll cs).spm = s.spm := rfl
@[simp] theorem State.handAll_mdc (cs : List Instr) : (s.handAll cs).mdc = s.mdc := rfl
@[simp] theorem State.handAll_bnl (cs : List Instr) : (s.handAll cs).bnl = s.bnl := rfl
@[simp] theorem State.handAll_ctp (cs : List Instr) : (s.handAll cs).ctp = s.ctp := rfl
@[simp] theorem State.handAll_evu (cs : List Instr) : (s.handAll cs).evu = s.evu := rfl
@[simp] theorem State.handAll_inputs (cs : List Instr) : (s.handAll cs).inputs = s.inputs := rfl
@[simp] theorem State.handAll_handed (cs : List Instr) : (s.handAll cs).handed = s.handed ++ cs := rfl
@[simp] theorem State.handAll_endedByClear (cs : List Instr) : (s.handAll cs).endedByClear = s.endedByClear := rfl
@[simp] theorem State.handAll_readings (cs : List Instr) : (s.handAll cs).readings = s.readings := rfl
@[simp] theorem State.handAll_choices (cs : List Instr) : (s.handAll cs).choices = s.choices := rfl
@[simp] theorem State.handAll_pending (cs : List Instr) : (s.handAll cs).pending = s.pending := rfl

/-! ### `hand` -/

@[simp] theorem State.hand_held (c : Instr) : (s.hand c).held = s.held := rfl
@[simp] theorem State.hand_htm (c : Instr) : (s.hand c).htm = s.htm := rfl
@[simp] theorem State.hand_tau (c : Instr) : (s.hand c).tau = s.tau := rfl
@[simp] theorem State.hand_cbu (c : Instr) : (s.hand c).cbu = s.cbu := rfl
@[simp] theorem State.hand_dsc (c : Instr) : (s.hand c).dsc = s.dsc := rfl
@[simp] theorem State.hand_tmb (c : Instr) : (s.hand c).tmb = s.tmb := rfl
@[simp] theorem State.hand_wsu (c : Instr) : (s.hand c).wsu = s.wsu := rfl
@[simp] theorem State.hand_tpe (c : Instr) : (s.hand c).tpe = s.tpe := rfl
@[simp] theorem State.hand_spm (c : Instr) : (s.hand c).spm = s.spm := rfl
@[simp] theorem State.hand_mdc (c : Instr) : (s.hand c).mdc = s.mdc := rfl
@[simp] theorem State.hand_bnl (c : Instr) : (s.hand c).bnl = s.bnl := rfl
@[simp] theorem State.hand_ctp (c : Instr) : (s.hand c).ctp = s.ctp := rfl
@[simp] theorem State.hand_evu (c : Instr) : (s.hand c).evu = s.evu := rfl
@[simp] theorem State.hand_inputs (c : Instr) : (s.hand c).inputs = s.inputs := rfl
@[simp] theorem State.hand_handed (c : Instr) : (s.hand c).handed = s.handed ++ [c] := rfl
@[simp] theorem State.hand_endedByClear (c : Instr) : (s.hand c).endedByClear = s.endedByClear := rfl
@[simp] theorem State.hand_readings (c : Instr) : (s.hand c).readings = s.readings := rfl
@[simp] theorem State.hand_choices (c : Instr) : (s.hand c).choices = s.choices := rfl
@[simp] theorem State.hand_pending (c : Instr) : (s.hand c).pending = s.pending := rfl

/-! ### `take` -/

@[simp] theorem State.take_held (c : Instr) : (s.take c).held = s.held := rfl
@[simp] theorem State.take_htm (c : Instr) : (s.take c).htm = s.htm := rfl
@[simp] theorem State.take_tau (c : Instr) : (s.take c).tau = s.tau := rfl
@[simp] theorem State.take_cbu (c : Instr) : (s.take c).cbu = s.cbu := rfl
@[simp] theorem State.take_dsc (c : Instr) : (s.take c).dsc = s.dsc := rfl
@[simp] theorem State.take_tmb (c : Instr) : (s.take c).tmb = s.tmb := rfl
@[simp] theorem State.take_wsu (c : Instr) : (s.take c).wsu = s.wsu := rfl
@[simp] theorem State.take_tpe (c : Instr) : (s.take c).tpe = s.tpe := rfl
@[simp] theorem State.take_spm (c : Instr) : (s.take c).spm = s.spm := rfl
@[simp] theorem State.take_mdc (c : Instr) : (s.take c).mdc = s.mdc := rfl
@[simp] theorem State.take_bnl (c : Instr) : (s.take c).bnl = s.bnl := rfl
@[simp] theorem State.take_ctp (c : Instr) : (s.take c).ctp = s.ctp := rfl
@[simp] theorem State.take_evu (c : Instr) : (s.take c).evu = s.evu := rfl
@[simp] theorem State.take_inputs (c : Instr) : (s.take c).inputs = s.inputs := rfl
@[simp] theorem State.take_handed (c : Instr) : (s.take c).handed = s.handed.erase c := rfl
@[simp] theorem State.take_endedByClear (c : Instr) : (s.take c).endedByClear = s.endedByClear := rfl
@[simp] theorem State.take_readings (c : Instr) : (s.take c).readings = s.readings := rfl
@[simp] theorem State.take_choices (c : Instr) : (s.take c).choices = s.choices := rfl
@[simp] theorem State.take_pending (c : Instr) : (s.take c).pending = s.pending := rfl

/-! ### `raise`, `reportDemand`, `settleTable` -/

theorem State.raise_nil : s.raise [] = s := rfl

theorem State.raise_cons (f : Flag) (fs : List Flag) :
    s.raise (f :: fs) = s.hand (.flagSetting (flagsOf (f :: fs))) := rfl

@[simp] theorem State.raise_held (fs : List Flag) : (s.raise fs).held = s.held := by
  unfold State.raise; split <;> rfl
@[simp] theorem State.raise_htm (fs : List Flag) : (s.raise fs).htm = s.htm := by
  unfold State.raise; split <;> rfl
@[simp] theorem State.raise_tau (fs : List Flag) : (s.raise fs).tau = s.tau := by
  unfold State.raise; split <;> rfl
@[simp] theorem State.raise_cbu (fs : List Flag) : (s.raise fs).cbu = s.cbu := by
  unfold State.raise; split <;> rfl
@[simp] theorem State.raise_dsc (fs : List Flag) : (s.raise fs).dsc = s.dsc := by
  unfold State.raise; split <;> rfl
@[simp] theorem State.raise_tmb (fs : List Flag) : (s.raise fs).tmb = s.tmb := by
  unfold State.raise; split <;> rfl
@[simp] theorem State.raise_wsu (fs : List Flag) : (s.raise fs).wsu = s.wsu := by
  unfold State.raise; split <;> rfl
@[simp] theorem State.raise_tpe (fs : List Flag) : (s.raise fs).tpe = s.tpe := by
  unfold State.raise; split <;> rfl
@[simp] theorem State.raise_spm (fs : List Flag) : (s.raise fs).spm = s.spm := by
  unfold State.raise; split <;> rfl
@[simp] theorem State.raise_mdc (fs : List Flag) : (s.raise fs).mdc = s.mdc := by
  unfold State.raise; split <;> rfl
@[simp] theorem State.raise_bnl (fs : List Flag) : (s.raise fs).bnl = s.bnl := by
  unfold State.raise; split <;> rfl
@[simp] theorem State.raise_ctp (fs : List Flag) : (s.raise fs).ctp = s.ctp := by
  unfold State.raise; split <;> rfl
@[simp] theorem State.raise_evu (fs : List Flag) : (s.raise fs).evu = s.evu := by
  unfold State.raise; split <;> rfl
@[simp] theorem State.raise_inputs (fs : List Flag) : (s.raise fs).inputs = s.inputs := by
  unfold State.raise; split <;> rfl
@[simp] theorem State.raise_endedByClear (fs : List Flag) : (s.raise fs).endedByClear = s.endedByClear := by
  unfold State.raise; split <;> rfl
@[simp] theorem State.raise_readings (fs : List Flag) : (s.raise fs).readings = s.readings := by
  unfold State.raise; split <;> rfl
@[simp] theorem State.raise_choices (fs : List Flag) : (s.raise fs).choices = s.choices := by
  unfold State.raise; split <;> rfl
@[simp] theorem State.raise_pending (fs : List Flag) : (s.raise fs).pending = s.pending := by
  unfold State.raise; split <;> rfl

@[simp] theorem State.raise_handed (fs : List Flag) :
    (s.raise fs).handed = s.handed ++ (if fs.isEmpty then [] else [.flagSetting (flagsOf fs)]) := by
  unfold State.raise; split <;> simp

@[simp] theorem State.reportDemand_held (b : DomainSet) (e : List DomainSet) :
    (s.reportDemand b e).held = s.held := by
  unfold State.reportDemand; split <;> rfl
@[simp] theorem State.reportDemand_htm (b : DomainSet) (e : List DomainSet) :
    (s.reportDemand b e).htm = s.htm := by
  unfold State.reportDemand; split <;> rfl
@[simp] theorem State.reportDemand_tau (b : DomainSet) (e : List DomainSet) :
    (s.reportDemand b e).tau = s.tau := by
  unfold State.reportDemand; split <;> rfl
@[simp] theorem State.reportDemand_cbu (b : DomainSet) (e : List DomainSet) :
    (s.reportDemand b e).cbu = s.cbu := by
  unfold State.reportDemand; split <;> rfl
@[simp] theorem State.reportDemand_dsc (b : DomainSet) (e : List DomainSet) :
    (s.reportDemand b e).dsc = s.dsc := by
  unfold State.reportDemand; split <;> rfl
@[simp] theorem State.reportDemand_tmb (b : DomainSet) (e : List DomainSet) :
    (s.reportDemand b e).tmb = s.tmb := by
  unfold State.reportDemand; split <;> rfl
@[simp] theorem State.reportDemand_wsu (b : DomainSet) (e : List DomainSet) :
    (s.reportDemand b e).wsu = s.wsu := by
  unfold State.reportDemand; split <;> rfl
@[simp] theorem State.reportDemand_tpe (b : DomainSet) (e : List DomainSet) :
    (s.reportDemand b e).tpe = s.tpe := by
  unfold State.reportDemand; split <;> rfl
@[simp] theorem State.reportDemand_spm (b : DomainSet) (e : List DomainSet) :
    (s.reportDemand b e).spm = s.spm := by
  unfold State.reportDemand; split <;> rfl
@[simp] theorem State.reportDemand_mdc (b : DomainSet) (e : List DomainSet) :
    (s.reportDemand b e).mdc = s.mdc := by
  unfold State.reportDemand; split <;> rfl
@[simp] theorem State.reportDemand_bnl (b : DomainSet) (e : List DomainSet) :
    (s.reportDemand b e).bnl = s.bnl := by
  unfold State.reportDemand; split <;> rfl
@[simp] theorem State.reportDemand_ctp (b : DomainSet) (e : List DomainSet) :
    (s.reportDemand b e).ctp = s.ctp := by
  unfold State.reportDemand; split <;> rfl
@[simp] theorem State.reportDemand_evu (b : DomainSet) (e : List DomainSet) :
    (s.reportDemand b e).evu = s.evu := by
  unfold State.reportDemand; split <;> rfl
@[simp] theorem State.reportDemand_inputs (b : DomainSet) (e : List DomainSet) :
    (s.reportDemand b e).inputs = s.inputs := by
  unfold State.reportDemand; split <;> rfl
@[simp] theorem State.reportDemand_endedByClear (b : DomainSet) (e : List DomainSet) :
    (s.reportDemand b e).endedByClear = s.endedByClear := by
  unfold State.reportDemand; split <;> rfl
@[simp] theorem State.reportDemand_readings (b : DomainSet) (e : List DomainSet) :
    (s.reportDemand b e).readings = s.readings := by
  unfold State.reportDemand; split <;> rfl
@[simp] theorem State.reportDemand_choices (b : DomainSet) (e : List DomainSet) :
    (s.reportDemand b e).choices = s.choices := by
  unfold State.reportDemand; split <;> rfl
@[simp] theorem State.reportDemand_pending (b : DomainSet) (e : List DomainSet) :
    (s.reportDemand b e).pending = s.pending := by
  unfold State.reportDemand; split <;> rfl

@[simp] theorem State.settleTable_held (t : Htm) (e : List DomainSet) (fs : List Flag) :
    (s.settleTable t e fs).held = s.held := by
  simp [State.settleTable]
@[simp] theorem State.settleTable_htm (t : Htm) (e : List DomainSet) (fs : List Flag) :
    (s.settleTable t e fs).htm = t := by
  simp [State.settleTable]
@[simp] theorem State.settleTable_tau (t : Htm) (e : List DomainSet) (fs : List Flag) :
    (s.settleTable t e fs).tau = s.tau := by
  simp [State.settleTable]
@[simp] theorem State.settleTable_cbu (t : Htm) (e : List DomainSet) (fs : List Flag) :
    (s.settleTable t e fs).cbu = s.cbu := by
  simp [State.settleTable]
@[simp] theorem State.settleTable_dsc (t : Htm) (e : List DomainSet) (fs : List Flag) :
    (s.settleTable t e fs).dsc = s.dsc := by
  simp [State.settleTable]
@[simp] theorem State.settleTable_tmb (t : Htm) (e : List DomainSet) (fs : List Flag) :
    (s.settleTable t e fs).tmb = s.tmb := by
  simp [State.settleTable]
@[simp] theorem State.settleTable_wsu (t : Htm) (e : List DomainSet) (fs : List Flag) :
    (s.settleTable t e fs).wsu = s.wsu := by
  simp [State.settleTable]
@[simp] theorem State.settleTable_tpe (t : Htm) (e : List DomainSet) (fs : List Flag) :
    (s.settleTable t e fs).tpe = s.tpe := by
  simp [State.settleTable]
@[simp] theorem State.settleTable_spm (t : Htm) (e : List DomainSet) (fs : List Flag) :
    (s.settleTable t e fs).spm = s.spm := by
  simp [State.settleTable]
@[simp] theorem State.settleTable_mdc (t : Htm) (e : List DomainSet) (fs : List Flag) :
    (s.settleTable t e fs).mdc = s.mdc := by
  simp [State.settleTable]
@[simp] theorem State.settleTable_bnl (t : Htm) (e : List DomainSet) (fs : List Flag) :
    (s.settleTable t e fs).bnl = s.bnl := by
  simp [State.settleTable]
@[simp] theorem State.settleTable_ctp (t : Htm) (e : List DomainSet) (fs : List Flag) :
    (s.settleTable t e fs).ctp = s.ctp := by
  simp [State.settleTable]
@[simp] theorem State.settleTable_evu (t : Htm) (e : List DomainSet) (fs : List Flag) :
    (s.settleTable t e fs).evu = s.evu := by
  simp [State.settleTable]
@[simp] theorem State.settleTable_inputs (t : Htm) (e : List DomainSet) (fs : List Flag) :
    (s.settleTable t e fs).inputs = s.inputs := by
  simp [State.settleTable]
@[simp] theorem State.settleTable_endedByClear (t : Htm) (e : List DomainSet) (fs : List Flag) :
    (s.settleTable t e fs).endedByClear = s.endedByClear := by
  simp [State.settleTable]
@[simp] theorem State.settleTable_readings (t : Htm) (e : List DomainSet) (fs : List Flag) :
    (s.settleTable t e fs).readings = s.readings := by
  simp [State.settleTable]
@[simp] theorem State.settleTable_choices (t : Htm) (e : List DomainSet) (fs : List Flag) :
    (s.settleTable t e fs).choices = s.choices := by
  simp [State.settleTable]
@[simp] theorem State.settleTable_pending (t : Htm) (e : List DomainSet) (fs : List Flag) :
    (s.settleTable t e fs).pending = s.pending := by
  simp [State.settleTable]

/-! ### `countChoice` -/

@[simp] theorem State.countChoice_held : s.countChoice.held = s.held := rfl
@[simp] theorem State.countChoice_htm : s.countChoice.htm = s.htm := rfl
@[simp] theorem State.countChoice_tau : s.countChoice.tau = s.tau := rfl
@[simp] theorem State.countChoice_cbu : s.countChoice.cbu = s.cbu := rfl
@[simp] theorem State.countChoice_dsc : s.countChoice.dsc = s.dsc := rfl
@[simp] theorem State.countChoice_tmb : s.countChoice.tmb = s.tmb := rfl
@[simp] theorem State.countChoice_wsu : s.countChoice.wsu = s.wsu := rfl
@[simp] theorem State.countChoice_tpe : s.countChoice.tpe = s.tpe := rfl
@[simp] theorem State.countChoice_spm : s.countChoice.spm = s.spm := rfl
@[simp] theorem State.countChoice_mdc : s.countChoice.mdc = s.mdc := rfl
@[simp] theorem State.countChoice_bnl : s.countChoice.bnl = s.bnl := rfl
@[simp] theorem State.countChoice_ctp : s.countChoice.ctp = s.ctp := rfl
@[simp] theorem State.countChoice_evu : s.countChoice.evu = s.evu := rfl
@[simp] theorem State.countChoice_inputs : s.countChoice.inputs = s.inputs := rfl
@[simp] theorem State.countChoice_handed : s.countChoice.handed = s.handed := rfl
@[simp] theorem State.countChoice_endedByClear : s.countChoice.endedByClear = s.endedByClear := rfl
@[simp] theorem State.countChoice_readings : s.countChoice.readings = s.readings := rfl
@[simp] theorem State.countChoice_choices : s.countChoice.choices = s.choices + 1 := rfl
@[simp] theorem State.countChoice_pending : s.countChoice.pending = s.pending := rfl

/-! ### `setCsn` -/

@[simp] theorem State.setCsn_held (high : Bool) : (s.setCsn high).held = s.held := rfl
@[simp] theorem State.setCsn_htm (high : Bool) : (s.setCsn high).htm = s.htm := rfl
@[simp] theorem State.setCsn_tau (high : Bool) : (s.setCsn high).tau = s.tau := rfl
@[simp] theorem State.setCsn_cbu (high : Bool) : (s.setCsn high).cbu = s.cbu := rfl
@[simp] theorem State.setCsn_dsc (high : Bool) : (s.setCsn high).dsc = s.dsc := rfl
@[simp] theorem State.setCsn_tmb (high : Bool) : (s.setCsn high).tmb = s.tmb := rfl
@[simp] theorem State.setCsn_wsu (high : Bool) : (s.setCsn high).wsu = s.wsu := rfl
@[simp] theorem State.setCsn_tpe (high : Bool) : (s.setCsn high).tpe = s.tpe := rfl
@[simp] theorem State.setCsn_spm (high : Bool) : (s.setCsn high).spm = s.spm := rfl
@[simp] theorem State.setCsn_mdc (high : Bool) : (s.setCsn high).mdc = s.mdc := rfl
@[simp] theorem State.setCsn_bnl (high : Bool) : (s.setCsn high).bnl = s.bnl := rfl
@[simp] theorem State.setCsn_ctp (high : Bool) : (s.setCsn high).ctp = s.ctp := rfl
@[simp] theorem State.setCsn_evu (high : Bool) : (s.setCsn high).evu = s.evu := rfl
@[simp] theorem State.setCsn_inputs (high : Bool) : (s.setCsn high).inputs = { s.inputs with csn := high } := rfl
@[simp] theorem State.setCsn_handed (high : Bool) : (s.setCsn high).handed = s.handed := rfl
@[simp] theorem State.setCsn_endedByClear (high : Bool) : (s.setCsn high).endedByClear = s.endedByClear := rfl
@[simp] theorem State.setCsn_readings (high : Bool) : (s.setCsn high).readings = s.readings := rfl
@[simp] theorem State.setCsn_choices (high : Bool) : (s.setCsn high).choices = s.choices := rfl
@[simp] theorem State.setCsn_pending (high : Bool) : (s.setCsn high).pending = s.pending := rfl

/-! ### `frameReady` -/

@[simp] theorem State.frameReady_held (st : Status) : (s.frameReady st).held = s.held := rfl
@[simp] theorem State.frameReady_htm (st : Status) : (s.frameReady st).htm = s.htm := rfl
@[simp] theorem State.frameReady_tau (st : Status) : (s.frameReady st).tau = s.tau := rfl
@[simp] theorem State.frameReady_cbu (st : Status) : (s.frameReady st).cbu = s.cbu := rfl
@[simp] theorem State.frameReady_dsc (st : Status) : (s.frameReady st).dsc = s.dsc := rfl
@[simp] theorem State.frameReady_tmb (st : Status) : (s.frameReady st).tmb = s.tmb := rfl
@[simp] theorem State.frameReady_wsu (st : Status) : (s.frameReady st).wsu = s.wsu := rfl
@[simp] theorem State.frameReady_tpe (st : Status) : (s.frameReady st).tpe = s.tpe := rfl
@[simp] theorem State.frameReady_spm (st : Status) : (s.frameReady st).spm = s.spm := rfl
@[simp] theorem State.frameReady_mdc (st : Status) : (s.frameReady st).mdc = s.mdc := rfl
@[simp] theorem State.frameReady_bnl (st : Status) : (s.frameReady st).bnl = s.bnl := rfl
@[simp] theorem State.frameReady_ctp (st : Status) : (s.frameReady st).ctp = s.ctp.withFrame.endFrameReady st := rfl
@[simp] theorem State.frameReady_evu (st : Status) : (s.frameReady st).evu = s.evu := rfl
@[simp] theorem State.frameReady_inputs (st : Status) :
    (s.frameReady st).inputs = { s.inputs with csn := true } := rfl
@[simp] theorem State.frameReady_handed (st : Status) : (s.frameReady st).handed = s.handed := rfl
@[simp] theorem State.frameReady_endedByClear (st : Status) : (s.frameReady st).endedByClear = s.endedByClear := rfl
@[simp] theorem State.frameReady_readings (st : Status) : (s.frameReady st).readings = s.readings := rfl
@[simp] theorem State.frameReady_choices (st : Status) : (s.frameReady st).choices = s.choices := rfl
@[simp] theorem State.frameReady_pending (st : Status) : (s.frameReady st).pending = s.pending := rfl

/-! ### `framePassed` -/

@[simp] theorem State.framePassed_held (cs : List Instr) : (s.framePassed cs).held = s.held := rfl
@[simp] theorem State.framePassed_htm (cs : List Instr) : (s.framePassed cs).htm = s.htm := rfl
@[simp] theorem State.framePassed_tau (cs : List Instr) : (s.framePassed cs).tau = s.tau := rfl
@[simp] theorem State.framePassed_cbu (cs : List Instr) : (s.framePassed cs).cbu = s.cbu := rfl
@[simp] theorem State.framePassed_dsc (cs : List Instr) : (s.framePassed cs).dsc = s.dsc := rfl
@[simp] theorem State.framePassed_tmb (cs : List Instr) : (s.framePassed cs).tmb = s.tmb := rfl
@[simp] theorem State.framePassed_wsu (cs : List Instr) : (s.framePassed cs).wsu = s.wsu := rfl
@[simp] theorem State.framePassed_tpe (cs : List Instr) : (s.framePassed cs).tpe = s.tpe := rfl
@[simp] theorem State.framePassed_spm (cs : List Instr) : (s.framePassed cs).spm = s.spm := rfl
@[simp] theorem State.framePassed_mdc (cs : List Instr) : (s.framePassed cs).mdc = s.mdc := rfl
@[simp] theorem State.framePassed_bnl (cs : List Instr) : (s.framePassed cs).bnl = s.bnl := rfl
@[simp] theorem State.framePassed_ctp (cs : List Instr) :
    (s.framePassed cs).ctp = { s.ctp.withFrame.endFramePending with
      outstanding := s.ctp.outstanding ++ cs.map fun c => (s.ctp.serial, c) } := rfl
@[simp] theorem State.framePassed_evu (cs : List Instr) : (s.framePassed cs).evu = s.evu := rfl
@[simp] theorem State.framePassed_inputs (cs : List Instr) :
    (s.framePassed cs).inputs = { s.inputs with csn := true } := rfl
@[simp] theorem State.framePassed_handed (cs : List Instr) : (s.framePassed cs).handed = s.handed := rfl
@[simp] theorem State.framePassed_endedByClear (cs : List Instr) : (s.framePassed cs).endedByClear = s.endedByClear := rfl
@[simp] theorem State.framePassed_readings (cs : List Instr) : (s.framePassed cs).readings = s.readings := rfl
@[simp] theorem State.framePassed_choices (cs : List Instr) : (s.framePassed cs).choices = s.choices := rfl
@[simp] theorem State.framePassed_pending (cs : List Instr) : (s.framePassed cs).pending = s.pending := rfl

/-! ### `takeOutstanding` -/

@[simp] theorem State.takeOutstanding_held (n : Nat) (c : Instr) : (s.takeOutstanding n c).held = s.held := rfl
@[simp] theorem State.takeOutstanding_htm (n : Nat) (c : Instr) : (s.takeOutstanding n c).htm = s.htm := rfl
@[simp] theorem State.takeOutstanding_tau (n : Nat) (c : Instr) : (s.takeOutstanding n c).tau = s.tau := rfl
@[simp] theorem State.takeOutstanding_cbu (n : Nat) (c : Instr) : (s.takeOutstanding n c).cbu = s.cbu := rfl
@[simp] theorem State.takeOutstanding_dsc (n : Nat) (c : Instr) : (s.takeOutstanding n c).dsc = s.dsc := rfl
@[simp] theorem State.takeOutstanding_tmb (n : Nat) (c : Instr) : (s.takeOutstanding n c).tmb = s.tmb := rfl
@[simp] theorem State.takeOutstanding_wsu (n : Nat) (c : Instr) : (s.takeOutstanding n c).wsu = s.wsu := rfl
@[simp] theorem State.takeOutstanding_tpe (n : Nat) (c : Instr) : (s.takeOutstanding n c).tpe = s.tpe := rfl
@[simp] theorem State.takeOutstanding_spm (n : Nat) (c : Instr) : (s.takeOutstanding n c).spm = s.spm := rfl
@[simp] theorem State.takeOutstanding_mdc (n : Nat) (c : Instr) : (s.takeOutstanding n c).mdc = s.mdc := rfl
@[simp] theorem State.takeOutstanding_bnl (n : Nat) (c : Instr) : (s.takeOutstanding n c).bnl = s.bnl := rfl
@[simp] theorem State.takeOutstanding_ctp (n : Nat) (c : Instr) :
    (s.takeOutstanding n c).ctp = { s.ctp with outstanding := s.ctp.outstanding.erase (n, c) } := rfl
@[simp] theorem State.takeOutstanding_evu (n : Nat) (c : Instr) : (s.takeOutstanding n c).evu = s.evu := rfl
@[simp] theorem State.takeOutstanding_inputs (n : Nat) (c : Instr) : (s.takeOutstanding n c).inputs = s.inputs := rfl
@[simp] theorem State.takeOutstanding_handed (n : Nat) (c : Instr) : (s.takeOutstanding n c).handed = s.handed := rfl
@[simp] theorem State.takeOutstanding_endedByClear (n : Nat) (c : Instr) :
    (s.takeOutstanding n c).endedByClear = s.endedByClear := rfl
@[simp] theorem State.takeOutstanding_readings (n : Nat) (c : Instr) :
    (s.takeOutstanding n c).readings = s.readings := rfl
@[simp] theorem State.takeOutstanding_choices (n : Nat) (c : Instr) :
    (s.takeOutstanding n c).choices = s.choices := rfl
@[simp] theorem State.takeOutstanding_pending (n : Nat) (c : Instr) :
    (s.takeOutstanding n c).pending = s.pending := rfl

/-! ### `settleDomains` -/

@[simp] theorem State.settleDomains_held (d : Dsc) (fs : List Flag) :
    (s.settleDomains d fs).held = s.held := by simp [State.settleDomains]
@[simp] theorem State.settleDomains_htm (d : Dsc) (fs : List Flag) :
    (s.settleDomains d fs).htm = s.htm := by simp [State.settleDomains]
@[simp] theorem State.settleDomains_tau (d : Dsc) (fs : List Flag) :
    (s.settleDomains d fs).tau = s.tau := by simp [State.settleDomains]
@[simp] theorem State.settleDomains_cbu (d : Dsc) (fs : List Flag) :
    (s.settleDomains d fs).cbu = s.cbu := by simp [State.settleDomains]
@[simp] theorem State.settleDomains_dsc (d : Dsc) (fs : List Flag) :
    (s.settleDomains d fs).dsc = s.dsc.afterEntryFaults d s.inputs.trips := by simp [State.settleDomains]
@[simp] theorem State.settleDomains_tmb (d : Dsc) (fs : List Flag) :
    (s.settleDomains d fs).tmb = s.tmb := by simp [State.settleDomains]
@[simp] theorem State.settleDomains_wsu (d : Dsc) (fs : List Flag) :
    (s.settleDomains d fs).wsu = s.wsu := by simp [State.settleDomains]
@[simp] theorem State.settleDomains_tpe (d : Dsc) (fs : List Flag) :
    (s.settleDomains d fs).tpe = s.tpe := by simp [State.settleDomains]
@[simp] theorem State.settleDomains_spm (d : Dsc) (fs : List Flag) :
    (s.settleDomains d fs).spm = s.spm := by simp [State.settleDomains]
@[simp] theorem State.settleDomains_mdc (d : Dsc) (fs : List Flag) :
    (s.settleDomains d fs).mdc = s.mdc := by simp [State.settleDomains]
@[simp] theorem State.settleDomains_bnl (d : Dsc) (fs : List Flag) :
    (s.settleDomains d fs).bnl = s.bnl := by simp [State.settleDomains]
@[simp] theorem State.settleDomains_ctp (d : Dsc) (fs : List Flag) :
    (s.settleDomains d fs).ctp = s.ctp := by simp [State.settleDomains]
@[simp] theorem State.settleDomains_evu (d : Dsc) (fs : List Flag) :
    (s.settleDomains d fs).evu = s.evu := by simp [State.settleDomains]
@[simp] theorem State.settleDomains_inputs (d : Dsc) (fs : List Flag) :
    (s.settleDomains d fs).inputs = s.inputs := by simp [State.settleDomains]
@[simp] theorem State.settleDomains_endedByClear (d : Dsc) (fs : List Flag) :
    (s.settleDomains d fs).endedByClear = s.endedByClear := by simp [State.settleDomains]
@[simp] theorem State.settleDomains_readings (d : Dsc) (fs : List Flag) :
    (s.settleDomains d fs).readings = s.readings := by simp [State.settleDomains]
@[simp] theorem State.settleDomains_choices (d : Dsc) (fs : List Flag) :
    (s.settleDomains d fs).choices = s.choices := by simp [State.settleDomains]
@[simp] theorem State.settleDomains_pending (d : Dsc) (fs : List Flag) :
    (s.settleDomains d fs).pending = s.pending := by simp [State.settleDomains]

/-! ### `withBudget` -/

@[simp] theorem State.withBudget_held (b : Cbu) : (s.withBudget b).held = s.held := by
  unfold State.withBudget; dsimp only; split <;> rfl
@[simp] theorem State.withBudget_htm (b : Cbu) : (s.withBudget b).htm = s.htm := by
  unfold State.withBudget; dsimp only; split <;> rfl
@[simp] theorem State.withBudget_tau (b : Cbu) : (s.withBudget b).tau = s.tau := by
  unfold State.withBudget; dsimp only; split <;> rfl
@[simp] theorem State.withBudget_cbu (b : Cbu) : (s.withBudget b).cbu = b.formed := by
  unfold State.withBudget; dsimp only; split <;> rfl
@[simp] theorem State.withBudget_dsc (b : Cbu) : (s.withBudget b).dsc = s.dsc := by
  unfold State.withBudget; dsimp only; split <;> rfl
@[simp] theorem State.withBudget_tmb (b : Cbu) : (s.withBudget b).tmb = s.tmb := by
  unfold State.withBudget; dsimp only; split <;> rfl
@[simp] theorem State.withBudget_wsu (b : Cbu) : (s.withBudget b).wsu = s.wsu := by
  unfold State.withBudget; dsimp only; split <;> rfl
@[simp] theorem State.withBudget_tpe (b : Cbu) : (s.withBudget b).tpe = s.tpe := by
  unfold State.withBudget; dsimp only; split <;> rfl
@[simp] theorem State.withBudget_spm (b : Cbu) : (s.withBudget b).spm = s.spm := by
  unfold State.withBudget; dsimp only; split <;> rfl
@[simp] theorem State.withBudget_mdc (b : Cbu) : (s.withBudget b).mdc = s.mdc := by
  unfold State.withBudget; dsimp only; split <;> rfl
@[simp] theorem State.withBudget_bnl (b : Cbu) : (s.withBudget b).bnl = s.bnl := by
  unfold State.withBudget; dsimp only; split <;> rfl
@[simp] theorem State.withBudget_ctp (b : Cbu) : (s.withBudget b).ctp = s.ctp := by
  unfold State.withBudget; dsimp only; split <;> rfl
@[simp] theorem State.withBudget_evu (b : Cbu) : (s.withBudget b).evu = s.evu := by
  unfold State.withBudget; dsimp only; split <;> rfl
@[simp] theorem State.withBudget_inputs (b : Cbu) : (s.withBudget b).inputs = s.inputs := by
  unfold State.withBudget; dsimp only; split <;> rfl
@[simp] theorem State.withBudget_endedByClear (b : Cbu) : (s.withBudget b).endedByClear = s.endedByClear := by
  unfold State.withBudget; dsimp only; split <;> rfl
@[simp] theorem State.withBudget_readings (b : Cbu) : (s.withBudget b).readings = s.readings := by
  unfold State.withBudget; dsimp only; split <;> rfl
@[simp] theorem State.withBudget_choices (b : Cbu) : (s.withBudget b).choices = s.choices := by
  unfold State.withBudget; dsimp only; split <;> rfl
@[simp] theorem State.withBudget_pending (b : Cbu) : (s.withBudget b).pending = s.pending := by
  unfold State.withBudget; dsimp only; split <;> rfl

/-! ### Slots -/

@[simp] theorem Htm.putHold_slots (t : Htm) (i : Fin 48) (h : Hold) (j : Nat) (hj : j < 48) :
    (t.putHold i h).slots[j] = if i.val = j then { t.slots[j] with hold := some h } else t.slots[j] := by
  simp only [Htm.putHold, Fin.getElem_fin, Vector.getElem_set]
  split
  · next e => subst e; rfl
  · rfl

@[simp] theorem Htm.retire_slots (t : Htm) (i : Fin 48) (j : Nat) (hj : j < 48) :
    (t.retire i).slots[j] =
      if i.val = j then { gen := t.slots[j].gen + 1, hold := none } else t.slots[j] := by
  simp only [Htm.retire, Fin.getElem_fin, Vector.getElem_set]
  split
  · next e => subst e; rfl
  · rfl

@[simp] theorem Htm.mapHolds_slots (t : Htm) (f : Hold → Hold) (j : Nat) (hj : j < 48) :
    (t.mapHolds f).slots[j] = { t.slots[j] with hold := t.slots[j].hold.map f } := by
  simp [Htm.mapHolds]

@[simp] theorem Htm.retireWhere_slots (t : Htm) (p : Hold → Bool) (j : Nat) (hj : j < 48) :
    (t.retireWhere p).slots[j] =
      match t.slots[j].hold with
      | some h => if p h then { gen := t.slots[j].gen + 1, hold := none } else t.slots[j]
      | none => t.slots[j] := by
  simp only [Htm.retireWhere, Vector.getElem_ofFn]
  rfl

/-! ### Domains -/

@[simp] theorem Dsc.mapDomains_domains (d : Dsc) (f : Fin 12 → Domain → Domain) (j : Nat) (hj : j < 12) :
    (d.mapDomains f).domains[j] = f ⟨j, hj⟩ d.domains[j] := by
  simp [Dsc.mapDomains]

@[simp] theorem Dsc.updateDomain_domains (d : Dsc) (i : Fin 12) (f : Domain → Domain) (j : Nat) (hj : j < 12) :
    (d.updateDomain i f).domains[j] = if i.val = j then f d.domains[j] else d.domains[j] := by
  simp only [Dsc.updateDomain, Fin.getElem_fin, Vector.getElem_set]
  split
  · next e => subst e; rfl
  · rfl

end Sys2Proof.Machine
end

