-- ==== Sys2Proof/Laws/Ops.lean ====
section
/-! SUPPORT. For each shared operation, once, all that it can do: taking an arrival, taking a command, reading and
searching the table, handle checks, the sweeps and the eviction. -/

namespace Sys2Proof.Machine

/-! ### Arrivals and commands -/

/-- An arrival at a part in reset is without effect. -/
theorem arrive_held {c : Instr} {s : State} {f : State → State} (h : s.held = true) : arrive c s f = .next s := by
  simp [arrive, h]

/-- An arrival is taken whole. -/
theorem arrive_next {c : Instr} {s : State} {f : State → State} (h : s.held = false) :
    arrive c s f = .next (f (s.take c)) := by
  simp [arrive, h]

/-- What an arrival can lead to. -/
theorem arrive_eq_next {c : Instr} {s t : State} {f : State → State} (h : arrive c s f = .next t) :
    (s.held = true ∧ t = s) ∨ (s.held = false ∧ t = f (s.take c)) := by
  unfold arrive at h
  split at h
  · exact .inl ⟨‹_›, by simpa using h.symm⟩
  · rename_i hh
    exact .inr ⟨by simpa using hh, by simpa using h.symm⟩

/-- A report whose turn it is is taken whole. -/
theorem arriveReport_of_takes {c : Instr} {s : State} {f : State → State} (h : TakesReport c s) :
    arriveReport c s f = .next (f (s.take c)) := by
  simp [arriveReport, h.1, h.2]

/-- What a report can lead to: nothing in reset, its taking in its turn, its waiting, or its going behind the earlier
ones of its source. -/
theorem arriveReport_eq_next {c : Instr} {s t : State} {f : State → State} (h : arriveReport c s f = .next t) :
    (s.held = true ∧ t = s) ∨ (TakesReport c s ∧ t = f (s.take c))
      ∨ (s.held = false ∧ s.reportIsNext c = false ∧ ((c ∈ s.handed ∧ t = s) ∨ (c ∉ s.handed ∧ t = s.hand c))) := by
  unfold arriveReport at h
  split at h
  · exact .inl ⟨‹_›, by simpa using h.symm⟩
  · rename_i hh
    have hh : s.held = false := by simpa using hh
    split at h
    · exact .inr (.inl ⟨⟨hh, ‹_›⟩, by simpa using h.symm⟩)
    · rename_i hn
      refine .inr (.inr ⟨hh, by simpa using hn, ?_⟩)
      split at h
      · exact .inl ⟨‹_›, by simpa using h.symm⟩
      · exact .inr ⟨‹_›, by simpa using h.symm⟩

/-- It is a report's turn exactly when the oldest in flight of its source to its block, if there is one, is itself. -/
theorem State.reportIsNext_iff {s : State} {c : Instr} :
    s.reportIsNext c = true ↔ ∀ e, s.handed.find? (fun e => e.reportPath = c.reportPath) = some e → e = c := by
  unfold State.reportIsNext State.oldestReport
  cases s.handed.find? fun e => e.reportPath = c.reportPath <;> simp

/-- The oldest arrival in flight is always taken in its turn. -/
theorem State.reportIsNext_head {s : State} {c : Instr} {rest : List Instr} (h : s.handed = c :: rest) :
    s.reportIsNext c = true := by
  rw [State.reportIsNext_iff, h]
  intro e he
  simpa [eq_comm] using he

/-- How a command is taken: as the next that the CTP has handed its block, or with the end of its frame. -/
theorem portTake_cases {c : Instr} {s s1 : State} {n : Nat} (h : portTake c s = some (n, s1)) :
    (s.ctp.nextFor c = some (n, c) ∧ s1 = s.takeOutstanding n c)
      ∨ (s.ctp.nextFor c = none ∧ s.frameOpen = true ∧ n = s.ctp.serial ∧ s1 = s.framePassed (otherParts c)) := by
  unfold portTake at h
  split at h
  · rename_i m next hm
    split at h
    · simp only [Option.some.injEq, Prod.mk.injEq] at h
      obtain ⟨rfl, rfl⟩ := h
      subst next
      exact .inl ⟨hm, rfl⟩
    · simp at h
  · rename_i hm
    split at h
    · simp only [Option.some.injEq, Prod.mk.injEq] at h
      exact .inr ⟨hm, ‹_›, h.1.symm, h.2.symm⟩
    · simp at h

/-- Taking a command changes the CTP and the level on CSN, and nothing else. -/
theorem portTake_frame {c : Instr} {s s1 : State} {n : Nat} (h : portTake c s = some (n, s1)) :
    s1 = { s with ctp := s1.ctp, inputs := { s.inputs with csn := s1.inputs.csn } } := by
  rcases portTake_cases h with ⟨-, rfl⟩ | ⟨-, -, -, rfl⟩ <;> rfl

/-- What becomes of a command that is not taken: it waits, it is handed out behind others, or no frame carries it. -/
theorem portLeft_cases (c : Instr) (s : State) :
    ((∃ n, (n, c) ∈ s.ctp.outstanding) ∧ portLeft c s = s)
      ∨ ((∀ n, (n, c) ∉ s.ctp.outstanding) ∧ s.frameOpen = true ∧ portLeft c s = s.handOut c)
      ∨ ((∀ n, (n, c) ∉ s.ctp.outstanding) ∧ s.frameOpen = false ∧ portLeft c s = s.setCsn true) := by
  by_cases ho : ∃ n, (n, c) ∈ s.ctp.outstanding
  · refine .inl ⟨ho, if_pos ?_⟩
    simpa using ho
  · have hn : ∀ n, (n, c) ∉ s.ctp.outstanding := fun n hm => ho ⟨n, hm⟩
    have hl : portLeft c s = if s.frameOpen then s.handOut c else s.setCsn true := if_neg (by simpa using hn)
    cases hf : s.frameOpen with
    | true => exact .inr (.inl ⟨hn, rfl, by rw [hl, hf, if_pos rfl]⟩)
    | false => exact .inr (.inr ⟨hn, rfl, by rw [hl, hf]; rfl⟩)

/-- A command that is taken answers with the result of its block. -/
theorem portCommand_of_takes {c : Instr} {s s1 : State} {n : Nat} {f : State → State × Reply} (h : Takes c s n s1) :
    portCommand c s f = .next ((f s1).1.hand (.blockResult n (f s1).2.status (f s1).2.payload)) := by
  simp [portCommand, h.1, h.2]

/-- What a command can lead to: in reset the level of CSN alone, what becomes of it when it is not taken, or its block's
result. -/
theorem portCommand_eq_next {c : Instr} {s t : State} {f : State → State × Reply} (h : portCommand c s f = .next t) :
    (s.held = true ∧ t = s.setCsn true)
      ∨ (s.held = false ∧ portTake c s = none ∧ t = portLeft c s)
      ∨ ∃ n s1, Takes c s n s1 ∧ t = (f s1).1.hand (.blockResult n (f s1).2.status (f s1).2.payload) := by
  unfold portCommand at h
  split at h
  · exact .inl ⟨‹_›, by simpa using h.symm⟩
  · rename_i hh
    split at h
    · exact .inr (.inl ⟨by simpa using hh, ‹_›, by simpa using h.symm⟩)
    · rename_i n s1 hp
      exact .inr (.inr ⟨n, s1, ⟨by simpa using hh, hp⟩, by simpa using h.symm⟩)

/-- How a part of a CLEAR is taken: as the next that the CTP has handed its block, or as it comes. -/
theorem partTake_cases {c : Instr} {s s1 : State} (h : partTake c s = some s1) :
    (∃ n, s.ctp.nextFor c = some (n, c) ∧ s1 = s.takeOutstanding n c) ∨ (s.ctp.nextFor c = none ∧ s1 = s) := by
  unfold partTake at h
  split at h
  · rename_i n next hm
    split at h
    · simp only [Option.some.injEq] at h
      subst next
      exact .inl ⟨n, hm, h.symm⟩
    · simp at h
  · exact .inr ⟨‹_›, by simpa using h.symm⟩

/-- A part of a CLEAR that is taken is handled whole. -/
theorem portPart_of_takes {c : Instr} {s s1 : State} {f : State → State} (h : TakesPart c s s1) :
    portPart c s f = .next (f s1) := by
  simp [portPart, h.1, h.2]

/-- What a part of a CLEAR can lead to: nothing in reset or before its turn, or its handling. -/
theorem portPart_eq_next {c : Instr} {s t : State} {f : State → State} (h : portPart c s f = .next t) :
    (s.held = true ∧ t = s) ∨ (s.held = false ∧ partTake c s = none ∧ t = s) ∨ ∃ s1, TakesPart c s s1 ∧ t = f s1 := by
  unfold portPart at h
  split at h
  · exact .inl ⟨‹_›, by simpa using h.symm⟩
  · rename_i hh
    split at h
    · exact .inr (.inl ⟨by simpa using hh, ‹_›, by simpa using h.symm⟩)
    · rename_i s1 hp
      exact .inr (.inr ⟨s1, ⟨by simpa using hh, hp⟩, by simpa using h.symm⟩)

/-- The flags of a handling, as one setting or none. -/
theorem State.raise_eq (s : State) (fs : List Flag) :
    s.raise fs = { s with handed := s.handed ++ (if fs = [] then [] else [.flagSetting (flagsOf fs)]) } := by
  cases fs <;> simp [State.raise, State.hand, State.handAll]

/-- All that the end of a handling of the DSC does (R86, R93). -/
theorem State.settleDomains_eq (s : State) (d : Dsc) (flags : List Flag) :
    s.settleDomains d flags = { s with
      dsc := s.dsc.afterEntryFaults d s.inputs.trips
      handed := s.handed ++ portCrossing s.dsc.domains[0].state d.domains[0].state
        ++ (if flags = [] then [] else [.flagSetting (flagsOf flags)])
        ++ s.dsc.entryFaultFlags d s.inputs.trips } := by
  simp [State.settleDomains, State.raise_eq, State.handAll]

/-- A domain after the fault reports at entry: tripped, or as the handling left it. -/
@[simp] theorem Dsc.afterEntryFaults_domains (before after : Dsc) (trips : DomainSet) (i : Nat) (hi : i < 12) :
    (before.afterEntryFaults after trips).domains[i] =
      if before.tripsAtEntry after trips ⟨i, hi⟩ then after.domains[i].tripped else after.domains[i] := by
  simp [Dsc.afterEntryFaults, Dsc.mapDomains]

/-- The entry faults touch the domains alone. -/
theorem Dsc.afterEntryFaults_eq (before after : Dsc) (trips : DomainSet) :
    before.afterEntryFaults after trips
      = { after with domains := (before.afterEntryFaults after trips).domains } := rfl

/-- Where no domain enters WAKING on an active trip input, a handling ends as it left the domains. -/
theorem State.settleDomains_of_no_entry {s : State} {d : Dsc} {flags : List Flag}
    (h : ∀ i : Fin 12, s.dsc.tripsAtEntry d s.inputs.trips i = false) :
    s.settleDomains d flags = { s with
      dsc := d
      handed := s.handed ++ portCrossing s.dsc.domains[0].state d.domains[0].state
        ++ (if flags = [] then [] else [.flagSetting (flagsOf flags)]) } := by
  have hd : s.dsc.afterEntryFaults d s.inputs.trips = d := by
    have : (s.dsc.afterEntryFaults d s.inputs.trips).domains = d.domains := by
      apply Vector.ext
      intro i hi
      simp [h ⟨i, hi⟩]
    rw [Dsc.afterEntryFaults_eq, this]
  rw [State.settleDomains_eq, hd]
  simp [Dsc.entryFaultFlags, h]

/-- The report of a handling, or none. -/
theorem State.reportDemand_eq (s : State) (before : DomainSet) (entered : List DomainSet) :
    s.reportDemand before entered = { s with
      handed := s.handed ++
        (if s.htm.demand = before ∧ entered = [] then [] else [.holdDemandReport s.htm.demand entered]) } := by
  by_cases h : s.htm.demand = before ∧ entered = []
  · simp [State.reportDemand, h.1, h.2]
  · have : s.htm.demand ≠ before ∨ entered ≠ [] := by tauto
    simp [State.reportDemand, this, h, State.hand, State.handAll]

/-! ### Flags -/

/-- All that a setting of flags can do: the flags become pending with ATTN formed anew, and one request follows a
transition at level WAKE_HOST. -/
theorem State.setFlags_eq (s : State) (flags : FlagSet) :
    s.setFlags flags = { s with
      evu := s.evu.withPending (s.evu.pending ||| flags)
      handed := s.handed ++ (if wakesHost (flags &&& ~~~ s.evu.pending) s.evu.levels
        then [.owner47Request s.evu.wakeCode] else []) } := by
  unfold State.setFlags
  split <;> simp_all [State.withEvu, State.hand, State.handAll]

/-- All that taking a setting can do to the marks of the CAL_ENDED in flight: one of CAL_ENDED takes the oldest away. -/
theorem State.unmarkEnded_eq (s : State) (flags : FlagSet) :
    s.unmarkEnded flags = { s with
      endedByClear := if flags = flagsOf [.calEnded] then s.endedByClear.tail else s.endedByClear } := by
  unfold State.unmarkEnded
  split <;> rfl

/-- All that a clearing does before it clears: the CAL_ENDED marked for it are in flight no more, and are set. -/
theorem State.takeEnded_eq (s : State) (serial : Option Nat) :
    s.takeEnded serial = if serial ∈ s.endedByClear then { s with
      evu := s.evu.withPending (s.evu.pending ||| flagsOf [.calEnded])
      handed := s.handed.diff (List.replicate (s.endedByClear.count serial) calEndedSetting)
        ++ (if wakesHost (flagsOf [.calEnded] &&& ~~~ s.evu.pending) s.evu.levels
          then [.owner47Request s.evu.wakeCode] else [])
      endedByClear := s.endedByClear.filter (· ≠ serial) }
    else s := by
  unfold State.takeEnded
  split
  · rw [State.setFlags_eq]
  · rfl

/-- With no CAL_ENDED marked for it the clearing finds none to take. -/
theorem State.takeEnded_of_not_mem {s : State} {serial : Option Nat} (h : serial ∉ s.endedByClear) :
    s.takeEnded serial = s := if_neg h

/-- All that an abort can do to a calibration: nothing unless it is RUNNING, else it ends, and CAL_ENDED is set. -/
theorem State.abortCalibration_eq (s : State) :
    s.abortCalibration = if s.spm.cal = .running then
      { s with
        spm := { s.spm with cal := .aborted, calCount := 0, calSum := 0, shorted := false }
        handed := s.handed ++ [.flagSetting (flagsOf [.calEnded])] }
    else s := by
  unfold State.abortCalibration
  split <;> simp [State.raise, State.hand, State.handAll]

/-- All that the abort of a CLEAR can do: an abort, whose CAL_ENDED is marked while the clearing is to come. -/
theorem State.abortByClear_eq (s : State) (serial : Option Nat) :
    s.abortByClear serial = { s.abortCalibration with
      endedByClear := if s.spm.cal = .running ∧ s.ctp.clearingToCome serial = true then s.endedByClear ++ [serial]
        else s.endedByClear } := by
  rw [State.abortByClear, State.abortCalibration_eq]
  split <;> split <;> simp_all

/-- What the two aborts meet on. -/
theorem State.abortsMeet_iff (s : State) :
    s.abortsMeet = true ↔
      .calibrationAbort ∈ s.handed ∧ (s.ctp.nextFor .calibrationAbort).map (·.2) = some .calibrationAbort := by
  simp [State.abortsMeet, Ctp.clearAbortIsNext]

/-- All that a CALIBRATION_ABORT can be: in reset nothing; else the abort of a mode change that is in flight, or the
SPM's part of a CLEAR, where none is in flight or the free choice between the two says so. -/
theorem execCalibrationAbort_cases (s : State) :
    (s.held = true ∧ execCalibrationAbort s = .next s)
      ∨ (s.held = false ∧ ∃ s0, s0 = (if s.abortsMeet then s.countChoice else s) ∧
          ((.calibrationAbort ∈ s.handed ∧ ¬ (s.abortsMeet = true ∧ Config.clearAbortFirst s.choices = true)
              ∧ execCalibrationAbort s = takeModeAbort s0)
            ∨ ((.calibrationAbort ∈ s.handed → s.abortsMeet = true ∧ Config.clearAbortFirst s.choices = true)
              ∧ execCalibrationAbort s = takeClearAbort s0))) := by
  unfold execCalibrationAbort
  split
  · exact .inl ⟨‹_›, rfl⟩
  · rename_i hh
    refine .inr ⟨by simpa using hh, _, rfl, ?_⟩
    split
    · rename_i hm
      have := (State.abortsMeet_iff s).1 hm
      split <;> simp_all
    · split <;> simp_all

/-! ### Searching the table -/

@[simp] theorem mem_allSlots (i : Fin 48) : i ∈ allSlots := List.mem_finRange i

@[simp] theorem mem_allDomains (i : Fin 12) : i ∈ allDomains := List.mem_finRange i

/-- In ascending order the first that satisfies p is the lowest. -/
theorem find_finRange_eq_some {n : Nat} {p : Fin n → Bool} {i : Fin n} :
    (List.finRange n).find? p = some i ↔ p i = true ∧ ∀ j : Fin n, j < i → p j = false := by
  constructor
  · intro h
    obtain ⟨hp, as, bs, heq, has⟩ := List.find?_eq_some_iff_append.mp h
    refine ⟨hp, fun j hj => ?_⟩
    have hs : (List.finRange n).Pairwise (· < ·) := List.pairwise_lt_finRange n
    have hm : j ∈ as ++ i :: bs := heq ▸ List.mem_finRange j
    rw [heq, List.pairwise_append] at hs
    rcases List.mem_append.mp hm with hm | hm
    · simpa using has j hm
    · rcases List.mem_cons.mp hm with rfl | hm
      · exact absurd hj (lt_irrefl _)
      · exact absurd (List.rel_of_pairwise_cons hs.2.1 hm) (not_lt.mpr hj.le)
  · rintro ⟨hp, hl⟩
    cases h : (List.finRange n).find? p with
    | none => exact absurd hp (by simpa using List.find?_eq_none.mp h i (List.mem_finRange i))
    | some k =>
      have hk : p k = true := List.find?_some h
      have hk' : ¬ k < i := fun hlt => by simp [hl k hlt] at hk
      have hi : ¬ i < k := fun hlt => by
        obtain ⟨_, as, bs, heq, has⟩ := List.find?_eq_some_iff_append.mp h
        have hs : (List.finRange n).Pairwise (· < ·) := List.pairwise_lt_finRange n
        have hm : i ∈ as ++ k :: bs := heq ▸ List.mem_finRange i
        rw [heq, List.pairwise_append] at hs
        rcases List.mem_append.mp hm with hm | hm
        · simpa [hp] using has i hm
        · rcases List.mem_cons.mp hm with rfl | hm
          · exact lt_irrefl _ hlt
          · exact absurd (List.rel_of_pairwise_cons hs.2.1 hm) (not_lt.mpr hlt.le)
      rw [le_antisymm (not_lt.mp hi) (not_lt.mp hk')]

/-- The lowest-numbered FREE slot (R9). -/
theorem Htm.firstFree_eq_some {t : Htm} {i : Fin 48} :
    t.firstFree = some i ↔ t.slots[i].hold = none ∧ ∀ j : Fin 48, j < i → t.slots[j].hold ≠ none := by
  simp only [Htm.firstFree, allSlots, find_finRange_eq_some, Option.isNone_iff_eq_none, ne_eq]
  refine and_congr_right fun _ => forall_congr' fun j => imp_congr_right fun _ => ?_
  cases t.slots[j].hold <;> simp

/-- No slot is FREE. -/
theorem Htm.firstFree_eq_none {t : Htm} : t.firstFree = none ↔ ∀ i : Fin 48, t.slots[i].hold ≠ none := by
  simp [Htm.firstFree, List.find?_eq_none, Option.ne_none_iff_isSome]

/-- The lowest slot whose hold satisfies p. -/
theorem Htm.firstWhere_eq_some {t : Htm} {p : Hold → Bool} {i : Fin 48} :
    t.firstWhere p = some i ↔
      (∃ h, t.slots[i].hold = some h ∧ p h = true)
        ∧ ∀ j : Fin 48, j < i → ∀ h, t.slots[j].hold = some h → p h = false := by
  simp only [Htm.firstWhere, allSlots, find_finRange_eq_some]
  refine and_congr ?_ (forall_congr' fun j => imp_congr_right fun _ => ?_)
  · cases t.slots[i].hold <;> simp
  · cases t.slots[j].hold <;> simp

/-- No hold satisfies p. -/
theorem Htm.firstWhere_eq_none {t : Htm} {p : Hold → Bool} :
    t.firstWhere p = none ↔ ∀ i : Fin 48, ∀ h, t.slots[i].hold = some h → p h = false := by
  simp only [Htm.firstWhere, List.find?_eq_none, mem_allSlots, forall_const]
  refine forall_congr' fun i => ?_
  cases t.slots[i].hold <;> simp

/-- What the handle checks answer (R6). -/
theorem Htm.resolve_eq_ok {t : Htm} {h : Handle} {i : Fin 48} {x : Hold} :
    t.resolve h = .ok (i, x) ↔
      h.slot.val = i.val ∧ t.slots[i].hold = some x ∧ h.gen = t.slots[i].gen := by
  obtain ⟨slot, gen⟩ := h
  by_cases hs : slot.val < 48
  · simp only [Htm.resolve, hs, ↓reduceDIte]
    constructor
    · intro h
      split at h
      · simp at h
      · rename_i y hy
        split at h
        · rename_i hg
          simp only [Except.ok.injEq, Prod.mk.injEq] at h
          obtain ⟨rfl, rfl⟩ := h
          exact ⟨rfl, hy, hg⟩
        · simp at h
    · rintro ⟨h1, h2, h3⟩
      have : i = ⟨slot.val, hs⟩ := Fin.ext h1.symm
      subst this
      simp only [Fin.getElem_fin] at h2 h3
      simp [h2, h3]
  · simp only [Htm.resolve, hs, ↓reduceDIte]
    constructor
    · intro h; simp at h
    · rintro ⟨h1, -⟩; omega

/-! ### Demand -/

/-- The domains of an ACTIVE hold. -/
theorem Slot.activeMask_getLsbD (sl : Slot) (d : Nat) :
    sl.activeMask.getLsbD d = true ↔ ∃ h, sl.hold = some h ∧ h.state = .active ∧ h.mask.getLsbD d = true := by
  unfold Slot.activeMask
  cases sl.hold with
  | none => simp
  | some h => by_cases hs : h.state = .active <;> simp [hs]

/-- A union of masks has a domain that one of them has. -/
theorem Htm.unionActive_getLsbD (t : Htm) (is : List (Fin 48)) (d : Nat) :
    (t.unionActive is).getLsbD d = true ↔ ∃ i ∈ is, t.slots[i].activeMask.getLsbD d = true := by
  induction is with
  | nil => simp [Htm.unionActive]
  | cons i is ih =>
    have : (t.unionActive (i :: is)) = t.slots[i].activeMask ||| t.unionActive is := rfl
    rw [this, BitVec.getLsbD_or, Bool.or_eq_true, ih]
    simp

/-- What the ACTIVE holds outside the candidate's own slot cover (R36). -/
theorem Htm.coveredExcept_getLsbD (t : Htm) (own : Option (Fin 48)) (d : Nat) :
    (t.coveredExcept own).getLsbD d = true ↔
      ∃ i : Fin 48, some i ≠ own ∧ t.slots[i].activeMask.getLsbD d = true := by
  simp [Htm.coveredExcept, Htm.unionActive_getLsbD]

/-- Tables with the same ACTIVE masks give the same demand. -/
theorem Htm.demand_congr {t u : Htm} (h : ∀ i : Fin 48, t.slots[i].activeMask = u.slots[i].activeMask) :
    t.demand = u.demand := by
  apply BitVec.eq_of_getLsbD_eq
  intro d _
  rw [Bool.eq_iff_iff, Htm.demand, Htm.demand, Htm.unionActive_getLsbD, Htm.unionActive_getLsbD]
  simp only [h]

/-! ### Admission -/

/-- Admission reads the tiers, R, A, the reserves, the nominal draws and what the other ACTIVE holds cover, and nothing
else. -/
theorem State.admits_congr {s u : State} {own : Option (Fin 48)} {cls : Fin 8} {mask : DomainSet} {code : Fin 166}
    (htau : s.tau = u.tau) (hcbu : s.cbu = u.cbu) (hdsc : s.dsc = u.dsc)
    (hcov : s.htm.coveredExcept own = u.htm.coveredExcept own) :
    s.admits own cls mask code = u.admits own cls mask code := by
  simp only [State.admits, State.costOf, State.marginal, State.reserveOf, htau, hcbu, hdsc, hcov]
  rfl

@[simp] theorem State.admits_take (s : State) (c : Instr) (own : Option (Fin 48)) (cls : Fin 8) (mask : DomainSet)
    (code : Fin 166) : (s.take c).admits own cls mask code = s.admits own cls mask code := rfl

/-- A hold that passes admission has its floor at or below the effective tier. -/
theorem State.floorOk_of_admits {s : State} {own : Option (Fin 48)} {cls : Fin 8} {mask : DomainSet} {code : Fin 166}
    (h : s.admits own cls mask code = true) : s.tau.floorOk cls = true := by
  simp only [State.admits, Bool.and_eq_true] at h
  exact h.1

/-! ### Operations on the table -/

/-- What REQUEST does: nothing, or one hold created in a FREE slot (R17 to R19). -/
theorem State.takeRequest_cases (s : State) (lo hi : Nat) (a : RequestArgs) :
    (∃ st, s.takeRequest lo hi a = (s, .error st))
      ∨ ∃ i, s.htm.slots[i].hold = none
        ∧ s.takeRequest lo hi a =
          (s.settleTable (s.htm.putHold i a.hold) (if a.hold.state = .active then [a.hold.mask] else []) [],
            .ok (s.htm.slots[i].handle i, a.hold.state)) := by
  unfold State.takeRequest
  cases hc : s.checkRequest lo hi a with
  | error st => exact .inl ⟨st, rfl⟩
  | ok i =>
    refine .inr ⟨i, ?_, rfl⟩
    unfold State.checkRequest at hc
    repeat' split at hc
    all_goals first
      | (cases hc; done)
      | (cases hc; exact (Htm.firstFree_eq_some.mp ‹_›).1)

/-- What RENEW does: nothing, or the one hold with its code replaced (R20, R21). -/
theorem State.takeRenew_cases (s : State) (node : Option Byte) (h : Handle) (code : Fin 166) :
    (∃ st, s.takeRenew node h code = (s, .error st))
      ∨ ∃ i x, s.authorised node h = .ok (i, x)
        ∧ ((x.state ≠ .scheduled ∧
              s.takeRenew node h code = (s.withHtm (s.htm.putHold i (x.renewed code)), .ok (x.renewed code)))
          ∨ (x.state = .scheduled ∧
              s.takeRenew node h code
                = (s.withHtm (s.htm.putHold i { x with code := code }), .ok { x with code := code }))) := by
  unfold State.takeRenew
  cases ha : s.authorised node h with
  | error st => exact .inl ⟨st, rfl⟩
  | ok e =>
    obtain ⟨i, x⟩ := e
    by_cases hi : x.interval.isSome ∧ code.val = 0
    · exact .inl ⟨.arg, by simp [hi]⟩
    · simp only [hi, ↓reduceIte]
      cases hs : x.state with
      | active =>
        by_cases had : s.admits (some i) x.cls x.mask code
        · exact .inr ⟨i, x, rfl, .inl ⟨by simp [hs], by simp [had]⟩⟩
        · exact .inl ⟨.denied, by simp [had]⟩
      | suspended => exact .inr ⟨i, x, rfl, .inl ⟨by simp [hs], rfl⟩⟩
      | scheduled => exact .inr ⟨i, x, rfl, .inr ⟨hs, by simp [hs]⟩⟩

/-- The authority check lets a hold through only as the handle checks found it (R15). -/
theorem State.resolve_of_authorised {s : State} {node : Option Byte} {h : Handle} {e : Fin 48 × Hold}
    (ha : s.authorised node h = .ok e) : s.htm.resolve h = .ok e := by
  unfold State.authorised at ha
  split at ha
  · simp at ha
  · rename_i i x hr
    split at ha
    · rw [hr, ha]
    · split at ha
      · rw [hr, ha]
      · simp at ha

/-- What RELEASE does: nothing, or one hold retired (R22). -/
theorem State.takeRelease_cases (s : State) (node : Option Byte) (h : Handle) :
    (∃ st, s.takeRelease node h = (s, .error st))
      ∨ ∃ i x, s.authorised node h = .ok (i, x)
        ∧ s.takeRelease node h = (s.settleTable (s.htm.retire i) [] [], .ok ()) := by
  unfold State.takeRelease
  cases ha : s.authorised node h with
  | error st => exact .inl ⟨st, rfl⟩
  | ok e => exact .inr ⟨e.1, e.2, rfl, rfl⟩

/-! ### Eviction -/

/-- The step of the search for the SUSPENDED hold that gives way. -/
def Htm.victimStep (t : Htm) (best : Option (Fin 48)) (i : Fin 48) : Option (Fin 48) :=
  match t.slots[i].hold with
  | some h =>
    if h.state = .suspended then
      match best with
      | none => some i
      | some b =>
        match t.slots[b].hold with
        | some hb => if h.cls.val ≤ hb.cls.val then some i else best
        | none => some i
    else best
  | none => best

theorem Htm.victim_eq (t : Htm) : t.victim = allSlots.foldl t.victimStep none := rfl

/-- The best of the slots seen so far: none when no hold among them is SUSPENDED, else the SUSPENDED hold of the lowest
class, and of that class the highest slot. -/
def Htm.bestOf (t : Htm) (seen : List (Fin 48)) (best : Option (Fin 48)) : Prop :=
  match best with
  | none => ∀ j ∈ seen, ∀ g, t.slots[j].hold = some g → g.state ≠ .suspended
  | some b => b ∈ seen ∧ ∃ v, t.slots[b].hold = some v ∧ v.state = .suspended
      ∧ ∀ j ∈ seen, ∀ g, t.slots[j].hold = some g → g.state = .suspended →
          v.cls < g.cls ∨ (v.cls = g.cls ∧ j ≤ b)

theorem Htm.bestOf_step {t : Htm} {seen : List (Fin 48)} {best : Option (Fin 48)} {i : Fin 48}
    (h : t.bestOf seen best) (hi : ∀ j ∈ seen, j < i) : t.bestOf (seen ++ [i]) (t.victimStep best i) := by
  unfold Htm.victimStep
  cases hold : t.slots[i].hold with
  | none =>
    cases best with
    | none =>
      intro j hj g hg
      rcases List.mem_append.mp hj with hj | hj
      · exact h j hj g hg
      · rw [List.mem_singleton] at hj; subst hj; rw [hold] at hg; cases hg
    | some b =>
      obtain ⟨hb, v, hv, hs, hmin⟩ := h
      refine ⟨List.mem_append_left _ hb, v, hv, hs, fun j hj g hg hgs => ?_⟩
      rcases List.mem_append.mp hj with hj | hj
      · exact hmin j hj g hg hgs
      · rw [List.mem_singleton] at hj; subst hj; rw [hold] at hg; cases hg
  | some x =>
    by_cases hx : x.state = .suspended
    · simp only [hx, ↓reduceIte]
      cases best with
      | none =>
        refine ⟨by simp, x, hold, hx, fun j hj g hg hgs => ?_⟩
        rcases List.mem_append.mp hj with hj | hj
        · exact absurd hgs (h j hj g hg)
        · rw [List.mem_singleton] at hj; subst hj; rw [hold] at hg; cases hg; exact .inr ⟨rfl, le_refl _⟩
      | some b =>
        obtain ⟨hb, v, hv, hs, hmin⟩ := h
        simp only [hv]
        by_cases hle : x.cls.val ≤ v.cls.val
        · simp only [hle, ↓reduceIte]
          refine ⟨by simp, x, hold, hx, fun j hj g hg hgs => ?_⟩
          rcases List.mem_append.mp hj with hj | hj
          · have hji := hi j hj
            rcases hmin j hj g hg hgs with hlt | ⟨heq, -⟩
            · exact .inl (lt_of_le_of_lt hle hlt)
            · rcases lt_or_eq_of_le (show x.cls ≤ g.cls from heq ▸ hle) with hlt | heq'
              · exact .inl hlt
              · exact .inr ⟨heq', hji.le⟩
          · rw [List.mem_singleton] at hj; subst hj; rw [hold] at hg; cases hg; exact .inr ⟨rfl, le_refl _⟩
        · simp only [hle, ↓reduceIte]
          refine ⟨List.mem_append_left _ hb, v, hv, hs, fun j hj g hg hgs => ?_⟩
          rcases List.mem_append.mp hj with hj | hj
          · exact hmin j hj g hg hgs
          · rw [List.mem_singleton] at hj; subst hj; rw [hold] at hg; cases hg; exact .inl (not_le.mp hle)
    · simp only [hx, ↓reduceIte]
      cases best with
      | none =>
        intro j hj g hg
        rcases List.mem_append.mp hj with hj | hj
        · exact h j hj g hg
        · rw [List.mem_singleton] at hj; subst hj; rw [hold] at hg; cases hg; exact hx
      | some b =>
        obtain ⟨hb, v, hv, hs, hmin⟩ := h
        refine ⟨List.mem_append_left _ hb, v, hv, hs, fun j hj g hg hgs => ?_⟩
        rcases List.mem_append.mp hj with hj | hj
        · exact hmin j hj g hg hgs
        · rw [List.mem_singleton] at hj; subst hj; rw [hold] at hg; cases hg; exact absurd hgs hx

theorem Htm.bestOf_foldl {t : Htm} (is : List (Fin 48)) (his : is.Pairwise (· < ·)) :
    ∀ (seen : List (Fin 48)) (best : Option (Fin 48)), t.bestOf seen best → (∀ j ∈ seen, ∀ i ∈ is, j < i) →
      t.bestOf (seen ++ is) (is.foldl t.victimStep best) := by
  induction is with
  | nil => intro seen best h _; simpa using h
  | cons i is ih =>
    intro seen best h hlt
    rw [List.pairwise_cons] at his
    have := ih his.2 (seen ++ [i]) _ (Htm.bestOf_step h fun j hj => hlt j hj i (by simp)) fun j hj k hk => by
      rcases List.mem_append.mp hj with hj | hj
      · exact hlt j hj k (by simp [hk])
      · rw [List.mem_singleton] at hj; subst hj; exact his.1 k hk
    simpa using this

/-- The hold that gives way is the SUSPENDED hold of the lowest class, and of that class the one in the highest slot
(R148). -/
theorem Htm.victim_spec (t : Htm) : t.bestOf allSlots t.victim := by
  have := Htm.bestOf_foldl (t := t) allSlots (List.pairwise_lt_finRange 48) [] none (by intro j hj; simp at hj)
    (by intro j hj; simp at hj)
  simpa [Htm.victim_eq] using this

/-! ### Folds over the slots in ascending order -/

/-- A fold over the slots, at the turn of each: if `P is acc` says what holds once the slots `is` have been taken, and
one turn keeps it, then it holds of all the slots at the end. -/
theorem foldl_allSlots {α : Type} {f : α → Fin 48 → α} {P : List (Fin 48) → α → Prop} {a : α} (h0 : P [] a)
    (hstep : ∀ seen x i, (∀ j : Fin 48, j ∈ seen ↔ j < i) → P seen x → P (seen ++ [i]) (f x i)) :
    P allSlots (allSlots.foldl f a) := by
  suffices H : ∀ (is seen : List (Fin 48)) (x : α), seen ++ is = allSlots → P seen x →
      P (seen ++ is) (is.foldl f x) by
    have := H allSlots [] a rfl h0
    simpa using this
  intro is
  induction is with
  | nil => intro seen x _ h; simpa using h
  | cons i is ih =>
    intro seen x heq h
    have hs : (seen ++ i :: is).Pairwise (· < ·) := heq ▸ List.pairwise_lt_finRange 48
    rw [List.pairwise_append] at hs
    have hmem : ∀ j : Fin 48, j ∈ seen ↔ j < i := by
      intro j
      constructor
      · intro hj; exact hs.2.2 j hj i (by simp)
      · intro hj
        have : j ∈ seen ++ i :: is := heq ▸ mem_allSlots j
        rcases List.mem_append.mp this with h | h
        · exact h
        · rcases List.mem_cons.mp h with rfl | h
          · exact absurd hj (lt_irrefl _)
          · exact absurd (List.rel_of_pairwise_cons hs.2.1 h) (not_lt.mpr hj.le)
    have := ih (seen ++ [i]) (f x i) (by simpa using heq) (hstep seen x i hmem h)
    simpa using this

/-- A turn of the expiry part changes its own slot alone. -/
theorem Htm.expireSlot_other (t : Htm) {i j : Fin 48} (h : j ≠ i) : (t.expireSlot i).slots[j] = t.slots[j] := by
  have hv : ¬ i.val = j.val := fun e => h (Fin.ext e.symm)
  unfold Htm.expireSlot Htm.expire
  repeat' split
  all_goals simp [Htm.putHold, Htm.retire, hv]

/-- A turn of a resume sweep changes its own slot alone, and only the table. -/
theorem resumeSlot_other (acc : State × List DomainSet) {i j : Fin 48} (h : j ≠ i) :
    (resumeSlot acc i).1.htm.slots[j] = acc.1.htm.slots[j] := by
  have hv : ¬ i.val = j.val := fun e => h (Fin.ext e.symm)
  unfold resumeSlot
  repeat' split
  all_goals simp [Htm.putHold, hv]

/-- A turn of a resume sweep changes nothing but the table. -/
theorem resumeSlot_frame (acc : State × List DomainSet) (i : Fin 48) :
    (resumeSlot acc i).1 = acc.1.withHtm (resumeSlot acc i).1.htm := by
  unfold resumeSlot
  repeat' split
  all_goals rfl

/-- A turn of the starts changes its own slot alone. -/
theorem startSlot_other (acc : Starts) {i j : Fin 48} (h : j ≠ i) :
    (startSlot acc i).1.htm.slots[j] = acc.1.htm.slots[j] := by
  have hv : ¬ i.val = j.val := fun e => h (Fin.ext e.symm)
  unfold startSlot Starts.add
  repeat' split
  all_goals simp [Htm.putHold, hv]

/-- A turn of the starts changes nothing but the table. -/
theorem startSlot_frame (acc : Starts) (i : Fin 48) :
    (startSlot acc i).1 = acc.1.withHtm (startSlot acc i).1.htm := by
  unfold startSlot Starts.add
  repeat' split
  all_goals rfl

/-! ### Bytes -/

@[simp] theorem length_beBytes (n x : Nat) : (beBytes n x).length = n := by
  induction n with
  | zero => rfl
  | succ n ih => simp [beBytes, ih]

/-- The 8-bit sum of a list followed by another. -/
theorem byteSum_append (a b : List Byte) : byteSum (a ++ b) = byteSum a + byteSum b := by
  induction a with
  | nil => simp [byteSum]
  | cons x a ih =>
    simp only [byteSum, List.cons_append, List.foldr_cons] at ih ⊢
    rw [ih, BitVec.add_assoc]

/-- A frame closed by its checksum sums to 0 (R183). -/
theorem byteSum_withChecksum (a : List Byte) : byteSum (withChecksum a) = 0 := by
  rw [withChecksum, byteSum_append]
  simp [byteSum]

end Sys2Proof.Machine
end

