-- ==== Sys2Proof/Tests/Slice0.lean ====
section
/-! SUPPORT. The model's own tests: the smoke test of WellFormed, the worked examples of the manual, and for each
statement with hypotheses a concrete state and operands that meet them. -/

namespace Sys2Proof.Tests

open Sys2Proof Sys2Proof.Machine

/-! ### WellFormed refuses what the ways in cannot carry -/

theorem test_wf_frame_too_long : (Instr.frameRefused (List.replicate 129 0)).wf = false := by decide +kernel
theorem test_wf_payload_too_long : (Instr.blockResult 0 .ok (List.replicate 125 0)).wf = false := by
  decide +kernel
theorem test_wf_remote_frame_with_data :
    (Instr.canFrameReceived { extended := false, ident := 0, remote := true, dlc := 1, data := [0] }).wf = false := by
  decide
theorem test_wf_data_frame_too_short :
    (Instr.canFrameReceived { extended := false, ident := 0, remote := false, dlc := 9, data := [0] }).wf = false := by
  decide
theorem test_wf_node_above_31 :
    (Instr.networkRequest 32 1 0 0 0).wf = false ∧ (Instr.networkRenew 32 ⟨0, 0⟩ 0).wf = false
      ∧ (Instr.networkRelease 32 ⟨0, 0⟩).wf = false ∧ (Instr.networkQuery 32 ⟨0, 0⟩).wf = false := by
  decide
theorem test_wf_template_without_domain : (Instr.application 0 0 { templateReset with mask := 0 }).wf = false := by
  decide
theorem test_wf_template_with_cap_0 : (Instr.application 0 0 { templateReset with cap := some 0 }).wf = false := by
  decide
theorem test_wf_outcome_not_returned :
    (Instr.tpeReturn 0 .window).wf = false ∧ (Instr.wsuReturn 0 .none).wf = false := by decide
theorem test_wf_shares_empty : (Instr.attribution []).wf = false := by decide
theorem test_wf_shares_out_of_order : (Instr.attribution [(⟨2, 0⟩, 1), (⟨1, 0⟩, 1)]).wf = false := by decide
theorem test_wf_share_beyond_the_table : (Instr.attribution [(⟨48, 0⟩, 1)]).wf = false := by decide
theorem test_wf_ceiling_amber : (Instr.voltageCeilingReport .amber).wf = false := by decide
theorem test_wf_mode_park_alone :
    (Instr.modeReport .park).wf = false ∧ (Instr.modeRecord .park).wf = false := by decide
theorem test_wf_entered_outside_the_demand : (Instr.holdDemandReport 1 [2]).wf = false := by decide
theorem test_wf_no_flag : (Instr.flagSetting 0).wf = false := by decide
theorem test_wf_accepts :
    (Instr.attribution [(⟨1, 0⟩, 1), (⟨2, 0⟩, 48000)]).wf = true ∧ (Instr.holdDemandReport 3 [2]).wf = true := by
  decide

/-! ### Small states -/

/-- Parked, the port live, nothing in flight; the boot hold stands in slot 0. -/
def live : State := { State.reset with handed := [], ctp := { Ctp.reset with live := true } }

/-- The state a result holds. -/
def nextOf (r : Result) : State :=
  match r with
  | .next s => s
  | .fault _ => live
  | .refused _ => live

/-- The state after a command. -/
def run (c : Instr) (s : State) : State := nextOf (exec c s)

/-- The state in which a block executes a command whose frame ends with it on a live port. -/
def taken (c : Instr) (s : State) : State := s.framePassed (otherParts c)

/-- On a live port with CSN high and nothing handed out, every command can be taken. -/
theorem takes (c : Instr) (s : State) (held : s.held = false) (hlive : s.ctp.live = true)
    (none : s.ctp.outstanding = []) (csn : s.inputs.csn = true) : Takes c s s.ctp.serial (taken c s) := by
  simp [Takes, portTake, Ctp.nextFor, State.frameOpen, held, hlive, none, csn, taken]

theorem takes_live (c : Instr) : Takes c live 0 (taken c live) := takes c live rfl rfl rfl rfl

/-- With nothing handed out, every part of a CLEAR can be taken as it comes. -/
theorem takes_part (c : Instr) (s : State) (held : s.held = false) (none : s.ctp.outstanding = []) :
    TakesPart c s s := by
  simp [TakesPart, partTake, Ctp.nextFor, held, none]

/-- A KEEP on D0 of owner 32, class 4, with 30 s. -/
def active : Hold := (Hold.fresh 32 1 4 30).begun

/-- The same, of another owner. -/
def ownedBy (o : Fin 64) : Hold := { active with owner := o }

/-- The same, SUSPENDED by a fall. -/
def suspended : Hold := active.suspendedFor .tierDrop

/-- The same, SCHEDULED. -/
def scheduled : Hold := active.waiting 60

/-- A hold that repeats every minute, in its last second. -/
def repeating : Hold := { active with interval := some 1, sinceStart := some 29, remaining := some 1 }

/-- A state whose table holds these holds and no other. -/
def table (s : State) (hs : List (Fin 48 × Hold)) : State :=
  s.withHtm (hs.foldl (fun t e => t.putHold e.1 e.2) Htm.free)

/-- A state whose table is full of one hold. -/
def full (s : State) (h : Hold) : State :=
  s.withHtm { Htm.free with slots := Vector.replicate 48 { gen := 0, hold := some h } }

/-- A state with one domain changed. -/
def withDomain (s : State) (i : Fin 12) (f : Domain → Domain) : State := { s with dsc := s.dsc.updateDomain i f }

/-- A state with another effective tier, the budget tier with it. -/
def atTier (s : State) (t : Tier) : State := { s with tau := { s.tau with budget := t, effective := t } }

/-! ### Worked examples -/

/-- 02, "admitting against a marginal domain" and 03, "one accounting second": the vehicle of both. -/
def parked : State :=
  let hold := fun (m : DomainSet) => { active with mask := m }
  let d := live.dsc
  let d := d.updateDomain 0 fun x => { x with draw := 60, state := .on }
  let d := d.updateDomain 3 fun x => { x with draw := 125, state := .waking, timer := some 1 }
  let d := d.updateDomain 5 fun x => { x with draw := 40, state := .draining, timer := some 1 }
  let d := d.updateDomain 7 fun x => { x with draw := 300 }
  let s := table live [(2, hold 0x001), (5, hold 0x009), (7, hold 0x008), (9, hold 0x008)]
  { s with
    dsc := d
    cbu := { s.cbu with allowance := 500, remaining := 1800000 }
    spm := { s.spm with measured := some 410 } }

/-- 03: D = 355, E = 368, R = 1,799,632, F = 255, last M = 410. -/
theorem test_accounting_second :
    (run .accountingSecond parked).cbu = { parked.cbu with
      remaining := 1799632, fraction := 255, lastD := some 355, lastM := .value 410, lastE := some 368,
      parkSeconds := 1, debited := 368 } := by decide +kernel

/-- 03: H2 30, H5 114, H7 83, H9 83, in this order. -/
theorem test_accounting_shares :
    (run .accountingSecond parked).handed
      = [.attribution [(⟨2, 0⟩, 30), (⟨5, 0⟩, 114), (⟨7, 0⟩, 83), (⟨9, 0⟩, 83)]] := by decide +kernel

/-- 03, "A budget that runs out": 300 are debited and EXHAUSTED is reported. -/
theorem test_accounting_runs_out :
    let s := run .accountingSecond { parked with cbu := { parked.cbu with remaining := 300 } }
    s.cbu.remaining = 0 ∧ s.cbu.debited = 300 ∧ .budgetTierReport .exhausted false ∈ s.handed := by decide +kernel

/-- 03, "A cap reached": H5 retires at 5,014 of 5,000, and the demand stays as it was. -/
theorem test_cap_reached :
    let s := { parked with htm := parked.htm.putHold 5 { active with mask := 9, cap := some 5000, charge := 4900 } }
    let t := run (.attribution [(⟨5, 0⟩, 114)]) s
    t.htm.slots[5] = { gen := 1, hold := none } ∧ t.handed = [.flagSetting 0x20] := by decide +kernel

/-- 03, "A cap at saturation". -/
theorem test_cap_at_saturation :
    let h := { active with mask := 8, cap := some 4294967295, charge := 4294967290 }
    (run (.attribution [(⟨7, 0⟩, 83)]) { parked with htm := parked.htm.putHold 7 h }).htm.slots[7].hold = none := by
  decide +kernel

/-- 03, "a threshold boundary": F = 64 is AMBER, one mA·s less is RED. -/
theorem test_threshold_boundary :
    tierOfFraction (fractionOf 450000 1800000) 128 64 16 = .amber
      ∧ tierOfFraction (fractionOf 449999 1800000) 128 64 16 = .red := by decide

/-- 02: H(33) class 3 on D0 and D7: only D7 is marginal, and V = 337,500. -/
theorem test_marginal_domain :
    let s := { parked with cbu := { parked.cbu with remaining := 1799632 } }
    s.marginal none 0x081 = 0x080 ∧ s.reserveOf 3 = 337500 := by decide +kernel

/-- 05, "the grid of a repeating hold". -/
theorem test_grid : gridCountdown 360 59400 = 5400 ∧ gridCountdown 360 25000 = 18200 ∧ gridCountdown 360 43200 = 21600 := by
  decide

/-- 05: boundary values of the timeout code. -/
theorem test_durations :
    duration 60 = some 60 ∧ duration 61 = some 120 ∧ duration 119 = some 3600 ∧ duration 120 = some 5400
      ∧ duration 165 = some 86400 := by decide

/-- 06, "one filter, four frames". -/
theorem test_four_frames :
    let x : Filter := { enable := true, ident := 0x3A0, mask := 0x7F0, data := some ⟨1, 0x80, 0xC0⟩ }
    x.matchesFrame 0x3A7 [0, 0x9F, 0, 0] = true ∧ x.matchesFrame 0x3B2 [0, 0x9F, 0, 0, 0, 0, 0, 0] = false
      ∧ x.matchesFrame 0x3A1 [0] = false ∧ x.matchesFrame 0x3A1 [0, 0x40, 0, 0, 0, 0, 0, 0] = false := by decide

/-- 06, "a night window with a tier condition": the five rows. -/
theorem test_night_window :
    let w : ClockWindow := { enable := true, outside := false, start := 1320, stop := 360, days := 0x1F }
    let x : Source := { Source.reset 9 with winA := w, winT := ⟨true, false, .amber⟩, logicAnd := true }
    let at' := fun (d m : Nat) (u : Bool) => ({ phase := 0, second := 0, minute := m, day := d, unset := u } : Tmb)
    x.qualifies (at' 4 1400 false) .green = true ∧ x.qualifies (at' 5 120 false) .green = false
      ∧ x.qualifies (at' 2 300 false) .red = false ∧ x.qualifies (at' 2 700 false) .green = false
      ∧ x.qualifies (at' 4 1400 true) .green = false := by decide

/-- 06, "a door handle": the bounce raises nothing, the expiry raises the event. -/
theorem test_door_handle :
    let s := run (.pinLevelChange 1 false) live
    s.wsu.pins[1] = { activeHigh := false, debounce := 3, state := .debouncing, timer := some (ms 30) }
      ∧ (run (.pinLevelChange 1 true) s).wsu.pins[1].state = .ready
      ∧ (run (.debounceExpiry 1) s).handed = [.wakeEvent 1] := by decide +kernel

/-- 07, "a full table at night": H33 gives way, and the new hold is known by (33, 7). -/
theorem test_full_table_at_night :
    let s := full live (ownedBy 35)
    let put := fun (t : Htm) (i : Fin 48) (g : BitVec 4) (o : Fin 64) (c : Fin 8) =>
      { t with slots := t.slots.set i { gen := g, hold := some { suspended with owner := o, cls := c } } }
    let t := put (put (put (put s.htm 14 0 33 2) 20 0 7 1) 33 6 36 1) 40 0 50 5
    let s := { s with
      htm := { t with srcLimit := 2 }
      cbu := { s.cbu with allowance := 500, remaining := 700000 }
      tau := { s.tau with budget := .amber, effective := .amber } }
    let r := run (.application 3 3 { mask := 8, cls := 4, code := 30, cap := none, coalesce := true }) s
    r.htm.slots[33].gen = 7 ∧ (r.htm.slots[33].hold.map (·.owner)) = some 51
      ∧ r.handed = [.holdDemandReport 9 [8], .flagSetting 0x40, .tpeReturn 3 .accepted] := by decide +kernel

/-- 08, "a cold morning": the seven conversions. -/
theorem test_cold_morning :
    [12400, 10480, 10540, 9420, 9560, 9610, 12100].map voltageCode = [128, 89, 90, 68, 71, 72, 122]
      ∧ ([128, 89, 90, 68, 71, 72, 122].foldl
          (fun (acc : Tier × List Tier) v => (ceilingAfter acc.1 v 90 70, acc.2 ++ [ceilingAfter acc.1 v 90 70]))
          (.green, [])).2 = [.green, .red, .red, .exhausted, .exhausted, .red, .green] := by decide

/-- 08, "calibrating the shunt": samples -3, -2, -4, -2 give O = -3, and then 407 reads 410. -/
theorem test_calibration :
    let s := run .calibrate live
    let s := run (.voltageConversion 12000 (-3)) s
    let s := run (.voltageConversion 12000 (-2)) s
    let s := run (.voltageConversion 12000 (-4)) s
    let s := run (.voltageConversion 12000 (-2)) s
    s.spm.offset = -3 ∧ s.spm.cal = .done ∧ s.spm.calSum = -11 ∧ s.spm.measured = none
      ∧ (run (.voltageConversion 12000 407) s).spm.measured = some 410 := by decide +kernel

/-- 04, "a switch that keeps tripping": the third trip gives a backoff of 16 s, the fourth latches. -/
theorem test_tripping :
    let s := fun (n : Nat) => withDomain live 6 fun d => { d with state := .on, attempts := n }
    (run (.faultReport 6 true) (s 2)).dsc.domains[6]
        = { (s 2).dsc.domains[6] with state := .faulted, attempts := 3, timer := some (seconds 16) }
      ∧ (run (.faultReport 6 true) (s 3)).dsc.domains[6].state = .latched := by decide +kernel

/-- 02, R49, reports of one source keep their order: with the ceilings RED and GREEN in flight, GREEN has no effect before
RED is taken, a third ceiling goes behind them, and a budget report may be taken before. -/
theorem test_reports_keep_their_order :
    let s := { live with handed := [.voltageCeilingReport .red, .voltageCeilingReport .green] }
    run (.voltageCeilingReport .green) s = s
      ∧ (run (.voltageCeilingReport .exhausted) s).handed = s.handed ++ [.voltageCeilingReport .exhausted]
      ∧ (run (.voltageCeilingReport .green) (run (.voltageCeilingReport .red) s)).tau.ceiling = .green
      ∧ (run (.budgetTierReport .amber false) s).tau.budget = .amber := by decide +kernel

/-- 04, the same, at entry: a switch that still trips when the backoff ends is FAULTED again in the same step (R86). -/
def stillTrips : State :=
  let s := withDomain live 6 fun d => { d with state := .faulted, attempts := 1, timer := some 0 }
  { s with inputs := { s.inputs with trips := 0x040 }, dsc := { s.dsc with holdDemand := 0x040 } }

theorem test_faults_at_entry :
    let t := run (.backoffExpiry 6) stillTrips
    t.dsc.domains[6].state = .faulted ∧ t.dsc.domains[6].attempts = 2 ∧ t.dsc.domains[6].timer = some (seconds 4)
      ∧ t.handed = [.flagSetting 0x100] := by decide +kernel

/-- R89: CLEAR_FAULT on it answers WAKING, and leaves it FAULTED with count 1. -/
theorem test_clear_fault_that_still_trips :
    let t := run (.clearFault 6) stillTrips
    t.dsc.domains[6].state = .faulted ∧ t.dsc.domains[6].attempts = 1
      ∧ t.handed = [.flagSetting 0x100, .blockResult 0 .ok [1]] := by decide +kernel

/-- 04, "a door wake and its run-down": demand in DRAINING returns to ON without a second settle. -/
theorem test_door_wake :
    let s := withDomain live 1 fun d => { d with state := .draining, timer := some 1 }
    (run (.holdDemandReport 3 [2]) s).dsc.domains[1].state = .on
      ∧ (run (.runDownExpiry 1) s).dsc.domains[1].state = .off := by decide +kernel

/-- 09, "three requests in a burst": the third waiting frame is discarded with SVC_OVERRUN. -/
theorem test_burst :
    let frame := fun (data : List Byte) =>
      Instr.canFrameReceived { extended := false, ident := 0x5E4, remote := false, dlc := 8, data := data }
    let s := run (frame [1, 12, 0, 8, 4, 30, 3, 0]) live
    let s := run (frame [4, 20, 7, 4, 0, 0, 0, 0]) s
    let s := run (frame [3, 12, 2, 9, 0, 0, 0, 0]) s
    s.bnl.buffer = .reserved ∧ s.bnl.queue.length = 2 ∧ s.handed = [.networkRequest 12 8 4 30 3]
      ∧ .flagSetting 0x800 ∈ (run (frame [2, 20, 7, 4, 90, 0, 0, 0]) s).handed := by decide +kernel

/-- 10, "a request and its handle": REQUEST, owner 34, mask D0, class 6, code 90; its frame passes, and with a byte
changed it fails its checksum. -/
theorem test_request_frame :
    let c := Instr.request 34 1 6 90 0 0 0
    let f : List Byte := [0x01, 0x0F, 34, 0, 1, 6, 90, 0, 0, 0, 0, 0, 0, 0, 0, 0, 0, 0x6D]
    encodeFrame c = some f ∧ judgeFrame (f ++ [0, 0]) = .command c
      ∧ judgeFrame (f.set 2 35) = .refused .check := by decide

/-- 10: the response to it, OK with handle (4, 2) and ACTIVE, shifted out with zeros after it. -/
theorem test_response_bytes :
    (List.range 8).map (sdoByte (.ok, [4, 2, 2])) = [0, 3, 4, 2, 2, 0xF5, 0, 0] := by decide

/-- R181: a port made live with CSN low begins no frame, so what follows until CSN rises is no command. -/
theorem test_live_with_csn_low :
    let s := run .portLive (run .frameBegin { live with ctp := { live.ctp with live := false } })
    s.inputs.csn = false ∧ s.sdo 0 = none ∧ (run (.purge 47) s).htm = s.htm ∧ (run (.purge 47) s).inputs.csn = true
      ∧ (run (.purge 47) (run (.purge 47) s)).htm.demand = 0 := by decide +kernel

/-- R184, R192: CLEAR by its frame's bytes, then EVENTS and REQUEST: each waits for the CLEAR at its block. EVENTS
then finds the flags cleared, and REQUEST the table empty. -/
theorem test_clear_before_what_follows :
    let request := Instr.request 34 1 6 90 0 0 0
    let s := { live with evu := { live.evu with pending := 0x0101, attnLow := true } }
    let asked := run request (run (.events 0) (run (.frameRefused [0x50, 0x00, 0xB0]) s))
    asked.htm = s.htm ∧ asked.evu = s.evu ∧ (run (.events 0) asked).evu = s.evu
      ∧ (run (.events 0) (run .clearFlags asked)).handed = [.blockResult 1 .ok [0, 0]]
      ∧ ((run request (run .clear asked)).htm.slots[0].hold.map (·.owner)) = some 34 := by decide +kernel

/-- R192: an abort taken before the clearing leaves CAL_ENDED cleared. -/
theorem test_abort_before_the_clearing :
    let s := { live with spm := { live.spm with cal := .running, shorted := true } }
    let t := run .clearFlags (run .calibrationAbort (run .clear s))
    t.spm.cal = .aborted ∧ t.evu.pending = 0
      ∧ t.handed = [.holdDemandReport 0 [], .blockResult 0 .ok [1]] := by decide +kernel

/-- R192: the CAL_ENDED of a completion that is in flight as a CLEAR's clearing is taken becomes pending after it, though
the CLEAR aborts a calibration started since, whose CAL_ENDED is cleared. -/
theorem test_completion_after_the_clearing :
    let s := { live with spm := { live.spm with cal := .running, shorted := true }, handed := [.flagSetting 0x8000] }
    let t := run .clearFlags (run .calibrationAbort (run .clear s))
    t.evu.pending = 0 ∧ t.endedByClear = []
      ∧ t.handed = [.holdDemandReport 0 [], .blockResult 0 .ok [1], .flagSetting 0x8000]
      ∧ (run (.flagSetting 0x8000) t).evu.pending = 0x8000 := by decide +kernel

/-- R192: with the clearing taken first, the CAL_ENDED of the CLEAR's abort is pending after it. -/
theorem test_abort_after_the_clearing :
    let s := { live with spm := { live.spm with cal := .running, shorted := true } }
    let t := run .calibrationAbort (run .clearFlags (run .clear s))
    t.endedByClear = [] ∧ (run .clearFlags t).evu.pending = 0
      ∧ (run (.flagSetting 0x8000) (run .clearFlags t)).evu.pending = 0x8000 := by decide +kernel

/-- A mode change's abort and a CLEAR's are both on their way to a RUNNING calibration, with a CALIBRATE behind. -/
def abortsMeeting : State :=
  { live with
    spm := { live.spm with cal := .running, shorted := true }
    handed := [.calibrationAbort]
    ctp := { live.ctp with outstanding := [(0, .clearFlags), (0, .calibrationAbort), (1, .calibrate)], serial := 2 } }

/-- R192: either abort may be taken first. After that of the CLEAR the CALIBRATE is next, and that of the mode change can
reach the calibration it starts; after that of the mode change the CLEAR's is still to come before the CALIBRATE. -/
theorem test_either_abort_first :
    let t := run .calibrationAbort abortsMeeting
    (Config.clearAbortFirst 0 = true → t.handed = [.calibrationAbort, .flagSetting 0x8000]
        ∧ t.endedByClear = [some 0] ∧ (run .calibrationAbort (run .calibrate t)).spm.cal = .aborted)
      ∧ (Config.clearAbortFirst 0 = false → t.handed = [.flagSetting 0x8000] ∧ t.endedByClear = []
        ∧ (run .calibrate (run .calibrationAbort t)).spm.cal = .running) := by
  have meet : abortsMeeting.abortsMeet = true := by decide +kernel
  have either (b : Bool) (h : Config.clearAbortFirst 0 = b) : run .calibrationAbort abortsMeeting =
      nextOf (if b then takeClearAbort abortsMeeting.countChoice else takeModeAbort abortsMeeting.countChoice) := by
    subst h
    show nextOf (execCalibrationAbort abortsMeeting) = _
    simp only [execCalibrationAbort, meet, show abortsMeeting.held = false from rfl]
    rfl
  constructor <;> intro h <;> rw [either _ h] <;> decide +kernel

/-- 11, "a tripped switch wakes the host". -/
theorem test_wakes_the_host :
    let s := { live with evu := { live.evu with levels := live.evu.levels.set 8 .wakeHost, wakeCode := 90 } }
    let t := run (.flagSetting 0x100) s
    t.evu.attnLow = true ∧ t.handed = [.owner47Request 90]
      ∧ (run (.flagSetting 0x100) { t with handed := [] }).handed = []
      ∧ (run (.events 0) t).evu.attnLow = false := by decide +kernel

/-- 01, R28: the boot hold is known as (0, 0), and a QUERY of it returns 33 bytes. -/
theorem test_query_boot_hold :
    (run (.query 0) live).handed = [.blockResult 0 .ok
      ([0, 0, 2, 47, 0, 1, 6, 60, 1, 0, 0, 0, 60] ++ List.replicate 20 0)] := by decide +kernel

/-- 13: R199, a handle carries its slot in byte 0 and its generation in byte 1; the upper bits are ignored. -/
theorem test_handle_bytes : handleOf 0xC5F3 = ⟨5, 3⟩ ∧ handleBytes ⟨33, 7⟩ = [33, 7] := by decide

/-- 13: the state word of an answer, SUSPENDED for NOT_ADMITTED with 86,400 s left. -/
theorem test_state_word :
    answerOf (.queryOk 20 ⟨7, 4⟩ { active with
      state := .suspended, reason := some .notAdmitted, remaining := some 86400 })
      = [0, 4, 20, 7, 4, 0xE1, 0x51, 0x80] := by decide

/-! ### Each statement's hypotheses are met -/

/-- Idle: held in reset; an arrival in flight; a command handed out; an expiry due; nothing, in the middle and at the end
of a second. -/
theorem witness_IdleStepGoesOnByItself :
    let due := withDomain live 0 fun d => { d with state := .waking, timer := some 0 }
    let last := { live with tmb := { live.tmb with phase := 32767 } }
    (State.inReset Inputs.quiet).held = true ∧ (State.inReset Inputs.quiet).pending = []
      ∧ State.reset.held = false ∧ State.reset.pending = [] ∧ State.reset.handed = .holdDemandReport 1 [1] :: []
      ∧ (live.handOut .clear).handed = []
      ∧ (live.handOut .clear).ctp.outstanding
        = (0, .clear) :: [(0, .clearFlags), (0, .clearService), (0, .calibrationAbort)]
      ∧ due.handed = [] ∧ due.ctp.outstanding = [] ∧ due.dueExpiry = some (.settleExpiry 0)
      ∧ live.handed = [] ∧ live.ctp.outstanding = [] ∧ live.dueExpiry = none ∧ live.tmb.phase + 1 < 32768
      ∧ last.held = false ∧ last.handed = [] ∧ last.ctp.outstanding = [] ∧ last.dueExpiry = none
      ∧ 32768 ≤ last.tmb.phase + 1 := by decide +kernel

theorem witness_EveryCommandMovesOnlyItsBlocks :
    exec .holdSecond live = .next (run .holdSecond live) ∧ Block.tau ∉ Instr.holdSecond.moves
      ∧ Instr.holdSecond.tracksInput = false ∧ Instr.holdSecond.movesCsn = false
      ∧ Instr.holdSecond ≠ .powerOnReset ∧ Instr.holdSecond ≠ .supplyBelowResetThreshold
      ∧ Instr.holdSecond ≠ .flagSetting 0x8000 ∧ Instr.holdSecond ≠ .clearFlags ∧ Instr.holdSecond ≠ .calibrationAbort :=
  ⟨rfl, by decide, by decide, by decide, by decide, by decide, by decide, by decide, by decide⟩

theorem witness_FramesAndCommandsCorrespond :
    encodeFrame (.purge 32) = some [0x06, 0x01, 0x20, 0xD9]
      ∧ judgeFrame ([0x06, 0x01, 0x20, 0xD9] ++ [0xFF]) = .command (.purge 32) := by decide

/-- A frame of one byte; L above 124; a byte short; a wrong checksum; code 0x07; a wrong L; a frame that passes. The
frame ends of each kind, on a live port with its frame begun, with CSN high and no frame, with CSN low and no frame, and on a
dead port. -/
theorem witness_FramesAreJudgedAndHandedOut :
    let s := { live with ctp := { live.ctp with frame := some [] } }
    ([0x06] : List Byte).length < 2
      ∧ ([0x06, 125] : List Byte).take 128 = 0x06 :: 125 :: [] ∧ 124 < (125 : Byte).toNat
      ∧ ([0x20] : List Byte).length < (1 : Byte).toNat + 1
      ∧ ([0x06, 0x01, 0x20, 0xD8].map fun b : Byte => b.toNat).sum % 256 ≠ 0
      ∧ commandSet 0x07 = none ∧ ([0x07, 0x00, 0xF9].map fun b : Byte => b.toNat).sum % 256 = 0
      ∧ (commandSet 0x06).map (·.1) = some 1 ∧ ([0x06, 0x00, 0xFA].map fun b : Byte => b.toNat).sum % 256 = 0
      ∧ ([0x06, 0x01, 0x20, 0xD9].map fun b : Byte => b.toNat).sum % 256 = 0
      ∧ s.held = false ∧ s.ctp.live = true ∧ s.ctp.frame = some []
      ∧ judgeFrame ([] ++ [0x06]) = .refused .framing ∧ judgeFrame ([] ++ [0x00, 0x00, 0x00]) = .command .nop
      ∧ judgeFrame ([] ++ [0x50, 0x00, 0xB0]) = .command .clear ∧ Instr.clear ≠ .nop
      ∧ live.held = false ∧ live.ctp.live = true ∧ live.ctp.frame = none ∧ live.inputs.csn = true
      ∧ (live.setCsn false).ctp.frame = none ∧ (live.setCsn false).inputs.csn = false
      ∧ State.reset.held = false ∧ State.reset.ctp.live = false := by decide +kernel

/-- A live port with CSN high and low, and a dead one; SDO outside a frame and in one; the awaited result; a result of
another command; no awaited command. -/
theorem witness_ThePortPreparesItsResponses :
    let s := { live with ctp := { live.ctp with buffer := .pending, awaited := some 3 } }
    let framed := run .frameBegin live
    live.held = false ∧ live.ctp.live = true ∧ live.inputs.csn = true ∧ live.ctp.frame = none
      ∧ State.reset.held = false ∧ State.reset.ctp.live = false ∧ (live.setCsn false).inputs.csn = false
      ∧ framed.ctp.frame = some [] ∧ framed.ctp.inShift = some (.idle, [])
      ∧ s.held = false ∧ s.ctp.awaited = some 3 ∧ s.ctp.buffer = .pending ∧ s.ctp.awaited ≠ some 2
      ∧ live.ctp.awaited ≠ some 3 ∧ TakesReport .portReset live ∧ TakesReport .portLive live := by decide +kernel

/-- A command that is next at its block, one that waits, one behind another, one whose frame ends now, and one without a
frame; the parts of a CLEAR alike. -/
theorem witness_TakingACommandMovesOnlyThePort :
    let s := { live with ctp := { live.ctp with outstanding := [(4, .purge 32), (5, .clear), (5, .clearFlags)], serial := 6 } }
    let events := { s with ctp := { s.ctp with outstanding := [(4, .events 0), (5, .clearFlags)] } }
    let next := fun (x : State) (c : Instr) => x.ctp.outstanding.find? fun e => e.2.portBlock = c.portBlock
    s.held = false ∧ next s (.purge 32) = some (4, .purge 32)
      ∧ (s.ctp.live = true ∧ (s.ctp.frame.isSome = true ∨ s.inputs.csn = true))
      ∧ next s .parkNow = none ∧ Instr.parkNow.movesCsn = true
      ∧ (5, .clear) ∈ s.ctp.outstanding ∧ next s .clear = some (4, .purge 32) ∧ Instr.purge 32 ≠ .clear
      ∧ Instr.clear.portBlock.isSome = true ∧ Instr.clear.movesCsn = true
      ∧ (∀ n, (n, .query 0) ∉ s.ctp.outstanding) ∧ next s (.query 0) = some (4, .purge 32)
      ∧ State.reset.held = false ∧ next State.reset .parkNow = none ∧ State.reset.ctp.live = false
      ∧ next s .clearFlags = some (5, .clearFlags) ∧ next s .calibrationAbort = none ∧ .calibrationAbort ∉ s.handed
      ∧ next events .clearFlags = some (4, .events 0) ∧ Instr.events 0 ≠ .clearFlags := by
  refine ⟨rfl, rfl, ⟨rfl, Or.inr rfl⟩, rfl, rfl, by decide, rfl, by decide, rfl, rfl, ?_, rfl, rfl, rfl, rfl, rfl, rfl,
    by decide, rfl, by decide⟩
  intro n h
  simp at h

theorem witness_PowerOnResetAndTheHoldInReset :
    Instr.holdSecond ≠ .powerOnReset ∧ Instr.holdSecond ≠ .supplyBelowResetThreshold
      ∧ Instr.holdSecond.tracksInput = false ∧ Instr.holdSecond.movesCsn = false ∧ Instr.nop.movesCsn = true
      ∧ Instr.frameBegin.movesCsn = true := by decide

/-- A state with a hold, a waiting command and a step that takes it satisfies every law. -/
theorem witness_laws :
    let s := { live with pending := [.request 34 1 6 90 0 0 0] }
    tableSound s ∧ tierSound s ∧ budgetSound s ∧ domainsSound s ∧ clockSound s ∧ supplySound s ∧ modeSound s
      ∧ pinsSound s ∧ serviceSound s ∧ portSound s ∧ attnSound s
      ∧ step s = .next (nextOf (step s)) := by
  have e : ∀ i : Fin 48, live.htm.slots[i].hold = if i = 0 then some bootHold else none := by decide +kernel
  have slot : ∀ i : Fin 48, ∀ h, live.htm.slots[i].hold = some h → i = 0 ∧ h = bootHold := by
    intro i h hh
    rw [e i] at hh
    split at hh
    · exact ⟨‹_›, (Option.some.inj hh).symm⟩
    · cases hh
  refine ⟨?_, ?_, ?_, ?_, ?_, ?_, ?_, ?_, ?_, ?_, ?_, rfl⟩
  · refine ⟨fun i h hh => ?_, by decide +kernel, by decide +kernel, by decide +kernel, fun c hc => ?_⟩
    · obtain ⟨-, rfl⟩ := slot i h hh
      exact ⟨by decide, ⟨rfl, by decide, fun _ => ⟨60, rfl, by decide, by decide⟩, rfl, (by intro n hn; cases hn)⟩,
        by decide, (by intro m hm; cases hm), (by intro c hc; cases hc), by decide,
        ⟨by decide, by decide, by decide, by decide⟩⟩
    · have : c = .request 34 1 6 90 0 0 0 := by simpa [live, Ctp.reset] using hc
      subst this; trivial
  · refine ⟨by decide +kernel, fun i h hh _ => ?_⟩
    obtain ⟨-, rfl⟩ := slot i h hh
    decide +kernel
  · exact ⟨by decide +kernel, by decide +kernel, by decide +kernel, by decide +kernel, by decide +kernel,
      by decide +kernel, by decide +kernel⟩
  · have d : ∀ i : Fin 12, live.dsc.domains[i] = Domain.reset := by decide +kernel
    refine ⟨by decide +kernel, by decide +kernel, by decide +kernel, by decide +kernel, fun i => ?_, fun i => ?_⟩
    · show machineSound live.dsc.domains[i]
      rw [d]; exact ⟨rfl, by decide⟩
    · show settingsSound live.dsc.domains[i]
      rw [d]; exact ⟨by decide, by decide, by decide, by decide⟩
  · exact ⟨by decide, by decide, by decide, by decide⟩
  · exact ⟨(by intro v hv; cases hv), by decide, by decide, (by intro x hx; cases hx), by decide, (by intro m hm; cases hm),
      by decide, by decide⟩
  · exact ⟨by decide, by decide, by decide, by decide +kernel⟩
  · exact ⟨by decide +kernel, by decide +kernel, by decide +kernel⟩
  · exact ⟨by decide, by decide, (by intro f hf; cases hf), by decide, by decide, (by intro a ha; cases ha), by decide,
      by decide, by decide⟩
  · exact ⟨by decide, by decide, by decide, (by intro n hn; cases hn), (by intro e he; cases he)⟩
  · show _ = _
    decide +kernel

/-! #### Hold operations -/

/-- A command that hands a report over, one that hands none, and a report taken in its turn. -/
theorem witness_HoldDemandComesFromActiveHolds :
    live.held = false ∧ exec (.purge 47) live = .next (run (.purge 47) live)
      ∧ exec (.limits 1 1 1) live = .next (run (.limits 1 1 1) live) ∧ TakesReport (.holdDemandReport 1 [1]) State.reset :=
  ⟨rfl, rfl, rfl, rfl, by decide +kernel⟩

/-- A slot at and below the end of the table; a FREE slot; another generation; a hold; a node that does not own it. -/
theorem witness_HandlesAndNodesAreChecked :
    47 < (⟨48, 0⟩ : Handle).slot.val ∧ live.htm.slots[(47 : Fin 48)].hold = none
      ∧ live.htm.slots[(0 : Fin 48)].hold = some bootHold ∧ (1 : BitVec 4) ≠ live.htm.slots[(0 : Fin 48)].gen
      ∧ (handleOf 0x3000).slot.val = 48
      ∧ (taken (.renew 0x3000 0) live).htm.resolve (handleOf 0x3000) = .error .arg
      ∧ Takes (.renew 0x3000 0) live 0 (taken (.renew 0x3000 0) live)
      ∧ Takes (.release 0x3000) live 0 (taken (.release 0x3000) live)
      ∧ Takes (.query 0x3000) live 0 (taken (.query 0x3000) live)
      ∧ live.held = false ∧ live.htm.resolve ⟨47, 0⟩ = .error .stale
      ∧ live.htm.resolve ⟨0, 0⟩ = .ok (0, bootHold) ∧ bootHold.owner.val ≠ (5 : Byte).toNat :=
  ⟨by decide, by decide +kernel, by decide +kernel, by decide +kernel, by decide, rfl, takes_live _, takes_live _,
    takes_live _, rfl, rfl, rfl, by decide⟩

/-- Every kind of bad argument at its boundary; an owner at its limit; a full table; a floor above the tier; and a
request that passes. -/
theorem witness_RequestsAreCheckedInOrder :
    let a : RequestArgs := { owner := 32, mask := 1, cls := 7, code := 1, delay := none, interval := none, cap := none }
    let red := atTier live .red
    live.checkRequest 32 46 { a with mask := 0 } = .error .arg ∧ live.checkRequest 32 46 { a with cls := 8 } = .error .arg
      ∧ live.checkRequest 32 46 { a with owner := 31 } = .error .arg
      ∧ live.checkRequest 32 46 { a with owner := 47 } = .error .arg
      ∧ live.checkRequest 32 46 { a with interval := some 1, code := 0 } = .error .arg
      ∧ (full live active).htm.ctlLimit ≤ ((List.finRange 48).filter fun i =>
          ((full live active).htm.slots[i].hold.map fun h => decide (h.owner.val = 32)) = some true).length
      ∧ ¬ (full live (ownedBy 33)).htm.ctlLimit ≤ ((List.finRange 48).filter fun i =>
          ((full live (ownedBy 33)).htm.slots[i].hold.map fun h => decide (h.owner.val = 32)) = some true).length
      ∧ (∀ i : Fin 48, (full live (ownedBy 33)).htm.slots[i].hold ≠ none)
      ∧ red.admits none 3 1 1 = false ∧ live.admits none 7 1 1 = true
      ∧ Takes (.request 47 1 0 1 0 0 0) live 0 (taken (.request 47 1 0 1 0 0 0) live)
      ∧ live.held = false ∧ live.checkRequest 0 31
        { owner := 5, mask := 1, cls := 8, code := 1, delay := none, interval := none, cap := none } = .error .arg :=
  ⟨rfl, rfl, rfl, rfl, rfl, by decide +kernel, by decide +kernel, by decide +kernel, by decide +kernel,
    by decide +kernel, takes_live _, rfl, rfl⟩

/-- A KEEP, an APPOINT with the longest delay and more, and a network REQUEST that pass. -/
theorem witness_RequestsCreateTheirHold :
    let keep := Instr.request 46 0x0FFF 7 1 0 0 0
    let appoint := Instr.request 46 0x0FFF 0 165 0xFFFFFFFF 0xFFFF 1
    Takes keep live 0 (taken keep live)
      ∧ (taken keep live).checkRequest 32 46
        { owner := 46, mask := 0xFFF, cls := 7, code := 1, delay := none, interval := none, cap := none } = .ok 1 ∧ (0 : BitVec 32).toNat = 0
      ∧ Takes appoint live 0 (taken appoint live)
      ∧ (taken appoint live).checkRequest 32 46
        { owner := 46, mask := 0xFFF, cls := 0, code := 165, delay := some 604800, interval := some 10080
          cap := some 1 } = .ok 1
      ∧ (0xFFFFFFFF : BitVec 32).toNat ≠ 0
      ∧ live.held = false ∧ live.checkRequest 0 31
        { owner := 31, mask := 1, cls := 7, code := 1, delay := none, interval := none, cap := none } = .ok 1 :=
  ⟨takes_live _, rfl, by decide, takes_live _, rfl, by decide, rfl, rfl⟩

/-- A repeating hold under code 0; an ACTIVE hold that passes and one that does not; a SUSPENDED and a SCHEDULED one;
and a node with each. -/
theorem witness_RenewActsByTheStateOfTheHold :
    let s := table live [(0, { ownedBy 5 with interval := some 1, sinceStart := some 0 }), (1, ownedBy 5),
      (2, suspended), (3, scheduled)]
    let red := table (atTier live .red) [(0, { ownedBy 5 with cls := 3 })]
    (∀ w code, Takes (.renew w code) s 0 (taken (.renew w code) s))
      ∧ (∀ w code, Takes (.renew w code) red 0 (taken (.renew w code) red)) ∧ s.held = false ∧ red.held = false
      ∧ (∃ h, s.htm.resolve (handleOf 0x0000) = .ok (0, h) ∧ h.interval.isSome = true ∧ (clampCode 0).val = 0
          ∧ h.owner.val = (5 : Byte).toNat)
      ∧ (∃ h, s.htm.resolve (handleOf 0x0100) = .ok (1, h) ∧ ¬ (h.interval.isSome = true ∧ (clampCode 255).val = 0)
          ∧ h.state = .active ∧ s.admits (some 1) h.cls h.mask (clampCode 255) = true ∧ h.owner.val = (5 : Byte).toNat)
      ∧ (∃ h, red.htm.resolve (handleOf 0x0000) = .ok (0, h) ∧ ¬ (h.interval.isSome = true ∧ (clampCode 1).val = 0)
          ∧ h.state = .active ∧ red.admits (some 0) h.cls h.mask (clampCode 1) = false
          ∧ h.owner.val = (5 : Byte).toNat)
      ∧ s.htm.resolve (handleOf 0x0200) = .ok (2, suspended) ∧ suspended.state = .suspended
      ∧ s.htm.resolve (handleOf 0x0300) = .ok (3, scheduled) ∧ scheduled.state = .scheduled
      ∧ scheduled.remaining = none :=
  ⟨fun _ _ => takes _ _ rfl rfl rfl rfl, fun _ _ => takes _ _ rfl rfl rfl rfl, rfl, rfl,
    ⟨_, rfl, by decide, by decide, by decide⟩, ⟨_, rfl, by decide, by decide, by decide +kernel, by decide⟩,
    ⟨_, rfl, by decide, by decide, by decide +kernel, by decide⟩, rfl, rfl, rfl, rfl, rfl⟩

theorem witness_ReleaseRetiresTheHold :
    let s := table live [(1, ownedBy 5)]
    Takes (.release 0x0000) live 0 (taken (.release 0x0000) live)
      ∧ (taken (.release 0x0000) live).htm.resolve (handleOf 0x0000) = .ok (0, bootHold)
      ∧ s.held = false ∧ s.htm.resolve ⟨1, 0⟩ = .ok (1, ownedBy 5) ∧ (ownedBy 5).owner.val = (5 : Byte).toNat :=
  ⟨takes_live _, rfl, rfl, rfl, by decide⟩

/-- A QUERY of a hold on both ports; FIND with each selector and value at its boundary. -/
theorem witness_QueryAndFindReadTheTable :
    let s := table live [(1, ownedBy 5)]
    Takes (.query 0x0000) live 0 (taken (.query 0x0000) live)
      ∧ (taken (.query 0x0000) live).htm.resolve (handleOf 0x0000) = .ok (0, bootHold)
      ∧ s.held = false ∧ s.htm.resolve ⟨1, 0⟩ = .ok (1, ownedBy 5) ∧ (ownedBy 5).owner.val = (5 : Byte).toNat
      ∧ (∀ selector value, Takes (.find selector value) live 0 (taken (.find selector value) live))
      ∧ (63 : Byte).toNat ≤ 63 ∧ 63 < (64 : Byte).toNat ∧ 2 < (3 : Byte).toNat ∧ 3 < (4 : Byte).toNat :=
  ⟨takes_live _, rfl, rfl, rfl, by decide, fun _ _ => takes_live _, by decide, by decide, by decide, by decide⟩

theorem witness_PurgeRetiresTheHoldsOfAnOwner :
    (∀ owner, Takes (.purge owner) live 0 (taken (.purge owner) live)) ∧ (63 : Byte).toNat ≤ 63 ∧ 63 < (64 : Byte).toNat :=
  ⟨fun _ => takes_live _, by decide, by decide⟩

theorem witness_ClearRetiresAndLimitsAreStored :
    Takes .clear live 0 (taken .clear live) ∧ (taken .clear live).htm.demand ≠ 0
      ∧ (table live []).htm.demand = 0 ∧ Takes (.limits 0 48 49) live 0 (taken (.limits 0 48 49) live) :=
  ⟨takes_live _, by decide +kernel, by decide +kernel, takes_live _⟩

/-! #### Tiers -/

/-- Each report on a part with nothing in flight; one that leaves the tier unchanged; and, with two ceilings in flight,
the one that is next, the one that waits, one that is not in flight, and a report of another source. -/
theorem witness_ReportsFormTheEffectiveTier :
    let same := Instr.budgetTierReport .green false
    let s := { live with handed := [.voltageCeilingReport .red, .voltageCeilingReport .green] }
    let oldest := s.handed.find? fun e => e.reportPath = (Instr.voltageCeilingReport .green).reportPath
    (∀ b p, TakesReport (.budgetTierReport b p) live) ∧ (∀ c, TakesReport (.voltageCeilingReport c) live)
      ∧ (∀ m, TakesReport (.modeReport m) live)
      ∧ exec same live = .next (run same live) ∧ (run same live).tau.effective = live.tau.effective
      ∧ s.held = false ∧ (Instr.voltageCeilingReport .green).reportPath.isSome = true
      ∧ oldest = some (.voltageCeilingReport .red) ∧ Instr.voltageCeilingReport .red ≠ .voltageCeilingReport .green
      ∧ Instr.voltageCeilingReport .green ∈ s.handed ∧ Instr.voltageCeilingReport .exhausted ∉ s.handed
      ∧ TakesReport (.voltageCeilingReport .red) s ∧ TakesReport (.budgetTierReport .amber false) s :=
  ⟨fun _ _ => ⟨rfl, rfl⟩, fun _ => ⟨rfl, rfl⟩, fun _ => ⟨rfl, rfl⟩, rfl, by decide +kernel, rfl, rfl, rfl, by decide,
    by decide, by decide, by decide +kernel, by decide +kernel⟩

theorem witness_AFallSuspendsTheHoldsAboveTheTier :
    let s := table live [(0, { active with cls := 0 }), (1, active)]
    let c := Instr.budgetTierReport .red false
    TakesReport c s ∧ exec c s = .next (run c s) ∧ (run c s).tau.effective.rank < s.tau.effective.rank :=
  ⟨⟨rfl, rfl⟩, rfl, by decide +kernel⟩

/-- A rise, and a report of RUN that leaves the tier, over a SUSPENDED hold that is tried and one that is not. -/
theorem witness_AResumeSweepTriesInSlotOrder :
    let s := table (atTier live .exhausted) [(0, suspended), (1, { suspended with cls := 0 })]
    let g := table live [(0, suspended)]
    let c := Instr.budgetTierReport .red false
    TakesReport c s ∧ exec c s = .next (run c s) ∧ s.tau.effective.rank < (run c s).tau.effective.rank
      ∧ s.htm.slots[(0 : Fin 48)].hold = some suspended ∧ suspended.state = .suspended
      ∧ (run c s).tau.classes[suspended.cls].floor.rank ≤ (run c s).tau.effective.rank
      ∧ (run c s).tau.effective.rank < (run c s).tau.classes[(0 : Fin 8)].floor.rank
      ∧ TakesReport (.modeReport .run) g ∧ exec (.modeReport .run) g = .next (run (.modeReport .run) g)
      ∧ g.tau.effective = (run (.modeReport .run) g).tau.effective :=
  ⟨⟨rfl, rfl⟩, rfl, by decide +kernel, by decide +kernel, rfl, by decide +kernel, by decide +kernel, ⟨rfl, rfl⟩, rfl,
    by decide +kernel⟩

/-- Class 8 and floor 4; a floor raised above the tier, raised to it, kept, and lowered over a SUSPENDED hold that passes
and one that does not. -/
theorem witness_ClassConfigPutsTheFloorToTheTable :
    let red := table (atTier live .red) [(0, { suspended with cls := 0 }), (1, { suspended with cls := 2 }),
      (2, { suspended with cls := 0, mask := 0xFFE, code := 0 })]
    let poor := { red with cbu := { red.cbu with remaining := 700000 } }
    (∀ cls floor reserve, Takes (.classConfig cls floor reserve) red 0 (taken (.classConfig cls floor reserve) red))
      ∧ 7 < (8 : Byte).toNat ∧ 3 < (4 : Byte).toNat
      ∧ (7 : Byte).toNat = (7 : Fin 8).val ∧ (3 : Byte).toNat = Tier.green.rank
      ∧ red.tau.classes[(7 : Fin 8)].floor.rank < Tier.green.rank ∧ red.tau.effective.rank < Tier.green.rank
      ∧ red.tau.classes[(7 : Fin 8)].floor.rank ≤ Tier.red.rank ∧ Tier.red.rank ≤ red.tau.effective.rank
      ∧ red.tau.classes[(0 : Fin 8)].floor = .green ∧ Tier.red.rank < red.tau.classes[(0 : Fin 8)].floor.rank
      ∧ (∀ cls floor reserve, Takes (.classConfig cls floor reserve) poor 0 (taken (.classConfig cls floor reserve) poor))
      ∧ ((run (.classConfig 0 1 0) red).htm.slots[(0 : Fin 48)].hold.map (·.state)) = some .active
      ∧ ((run (.classConfig 0 1 255) poor).htm.slots[(2 : Fin 48)].hold.map (·.state)) = some .suspended
      ∧ red.tau.effective.rank < red.tau.classes[(2 : Fin 8)].floor.rank :=
  ⟨fun _ _ _ => takes _ _ rfl rfl rfl rfl, by decide, by decide, by decide, by decide, by decide +kernel,
    by decide +kernel, by decide +kernel, by decide +kernel, by decide +kernel, by decide +kernel,
    fun _ _ _ => takes _ _ rfl rfl rfl rfl, by decide +kernel, by decide +kernel, by decide +kernel⟩

/-! #### The budget -/

theorem witness_FractionAndBudgetTier : 0 < 1 ∧ 1 ≤ 1 ∧ 254 < 255 ∧ 255 < 256 := by decide

theorem witness_CreditRaisesTheBudget :
    (∀ amount, Takes (.credit amount) live 0 (taken (.credit amount) live)) ∧ (1 : BitVec 32) ≠ 0 :=
  ⟨fun _ => takes_live _, by decide⟩

/-- The highest and the lowest permitted thresholds, and each way to break them; the refill. -/
theorem witness_BudgetIsConfiguredAndRefilled :
    let permitted := fun (allowance tg ta tr : BitVec 16) =>
      allowance.toNat ≠ 0 ∧ tg.toNat ≤ 256 ∧ ta.toNat < tg.toNat ∧ tr.toNat < ta.toNat ∧ 1 ≤ tr.toNat
    (∀ allowance q k tg ta tr, Takes (.budgetConfig allowance q k tg ta tr) live 0
        (taken (.budgetConfig allowance q k tg ta tr) live))
      ∧ permitted 1 256 255 254 ∧ permitted 1 3 2 1 ∧ ¬ permitted 0 3 2 1 ∧ ¬ permitted 1 257 2 1 ∧ ¬ permitted 1 3 3 1
      ∧ ¬ permitted 1 3 2 2 ∧ ¬ permitted 1 3 2 0
      ∧ TakesReport .parkEntryRefill live ∧ 1 ≤ live.cbu.allowance ∧ live.cbu.tg ≤ 256
      ∧ ∀ m, TakesReport (.modeRecord m) live :=
  ⟨fun _ _ _ _ _ _ => takes_live _, by decide, by decide, by decide, by decide, by decide, by decide, by decide,
    ⟨rfl, rfl⟩, by decide, by decide, fun _ => ⟨rfl, rfl⟩⟩

/-- In PARK and in another mode; a domain in each state. -/
theorem witness_AccountingSecondDebitsTheBudget :
    let run' := { live with cbu := { live.cbu with mode := .run } }
    live.held = false ∧ live.cbu.mode = .park ∧ run'.held = false ∧ run'.cbu.mode ≠ .park
      ∧ parked.dsc.domains[(0 : Fin 12)].state = .on ∧ parked.dsc.domains[(3 : Fin 12)].state = .waking
      ∧ parked.dsc.domains[(5 : Fin 12)].state = .draining ∧ parked.dsc.domains[(1 : Fin 12)].state = .off
      ∧ Domain.reset.wake.tripped.state = .faulted
      ∧ ({ Domain.reset.wake with attempts := 3 } : Domain).tripped.state = .latched := by decide +kernel

theorem witness_SharesAddUpToTheDraw :
    parked.dsc.domains[(3 : Fin 12)].state.gateClosed = true
      ∧ ((List.finRange 48).filter fun i => parked.htm.slots[i].activeMask.getLsbD 3) = [5, 7, 9]
      ∧ parked.dsc.domains[(1 : Fin 12)].state.gateClosed = false := by decide +kernel

/-- A capped hold that its share takes to the cap, one that it leaves a mA·s below, and a FREE slot. -/
theorem witness_AttributionAddsSharesAndRetiresCappedHolds :
    let capped := { active with cap := some 10 }
    let s := table live [(2, capped), (3, capped)]
    let shares : List (Handle × Nat) := [(⟨2, 0⟩, 10), (⟨3, 0⟩, 9), (⟨4, 0⟩, 1)]
    s.held = false ∧ (shares.map fun e => e.1.slot).Nodup ∧ s.htm.slots[(1 : Fin 48)].hold = none
      ∧ s.htm.slots[(2 : Fin 48)].hold = some capped ∧ s.htm.slots[(3 : Fin 48)].hold = some capped
      ∧ capped.cap = some 10 ∧ 10 ≤ capped.charge + 10 ∧ capped.charge + 9 < 10 := by decide +kernel

/-! #### Power domains -/

/-- A domain that enters WAKING on an active trip input, at both ends of the attempt count, and one that does not. -/
theorem witness_DemandReportsMoveTheDomains :
    let woken := fun (n : Nat) => stillTrips.dsc.updateDomain 6 fun d => { d with state := .waking, attempts := n }
    (∀ d e, TakesReport (.holdDemandReport d e) live) ∧ (∀ a, TakesReport (.runDemandReport a) live)
      ∧ live.dsc.tripsAtEntry live.dsc live.inputs.trips 6 = false
      ∧ stillTrips.dsc.tripsAtEntry (woken 2) stillTrips.inputs.trips 6 = true ∧ (woken 2).domains[6].attempts ≤ 2
      ∧ stillTrips.dsc.tripsAtEntry (woken 3) stillTrips.inputs.trips 6 = true ∧ 3 ≤ (woken 3).domains[6].attempts :=
  ⟨fun _ _ => ⟨rfl, rfl⟩, fun _ => ⟨rfl, rfl⟩, by decide +kernel⟩

/-- An input that becomes inactive, a trip on an open gate, one at each count of attempts on a closed gate. -/
theorem witness_FaultReportsOpenTheGate :
    let s := fun (n : Nat) => withDomain live 6 fun d => { d with state := .on, attempts := n }
    live.held = false ∧ live.dsc.domains[(6 : Fin 12)].state = .off
      ∧ (s 2).held = false ∧ (s 2).dsc.domains[(6 : Fin 12)].state = .on ∧ (s 2).dsc.domains[(6 : Fin 12)].attempts ≤ 2
      ∧ (s 3).held = false ∧ (s 3).dsc.domains[(6 : Fin 12)].state = .on
      ∧ 3 ≤ (s 3).dsc.domains[(6 : Fin 12)].attempts ∧ 3 ≤ (s 4).dsc.domains[(6 : Fin 12)].attempts := by decide +kernel

/-- A domain in each state that has a timer, demanded or not, with and without a run-down time. -/
theorem witness_DomainTimersExpire :
    let s := fun (st : DomainState) => withDomain live 6 fun d => { d with state := st, timer := some 0 }
    let demanded := fun (x : State) => { x with dsc := { x.dsc with holdDemand := 0x040 } }
    let d := fun (x : State) => x.dsc.domains[(6 : Fin 12)]
    (s .waking).held = false ∧ (d (s .waking)).state = .waking ∧ (demanded (s .waking)).dsc.isDemanded 6 = true
      ∧ (s .waking).dsc.isDemanded 6 = false ∧ 0 < (d (s .waking)).runDown
      ∧ (d (withDomain (s .waking) 6 fun x => { x with runDown := 0 })).runDown = 0
      ∧ (d (s .on)).state = .on ∧ (d (s .on)).timer.isSome = true ∧ (d (s .draining)).state = .draining
      ∧ (d (s .faulted)).state = .faulted ∧ (demanded (s .faulted)).dsc.isDemanded 6 = true
      ∧ (demanded (s .faulted)).dsc.usable 6 = true ∧ (s .faulted).dsc.isDemanded 6 = false
      ∧ (withDomain (s .faulted) 6 fun x => { x with enable := false }).dsc.usable 6 = false
      ∧ (d live).state ≠ .waking ∧ (d live).state ≠ .on ∧ (d live).state ≠ .draining ∧ (d live).state ≠ .faulted
      ∧ (d (withDomain live 6 fun x => { x with state := .on })).timer = none := by decide +kernel

/-- Each refused argument at its boundary; a disable in ON and in OFF; an enable that wakes and one that does not; and
settings that leave the enable. -/
theorem witness_DomainConfigStoresAndMovesOnce :
    let on := withDomain live 11 fun d => { d with state := .on, demanded := true }
    let off := withDomain live 11 fun d => { d with enable := false, demanded := true }
    let demanded := { off with dsc := { off.dsc with holdDemand := 0x800 } }
    (∀ x : State, x = live ∨ x = on ∨ x = off ∨ x = demanded → ∀ a b c d e f,
        Takes (.domainConfig a b c d e f) x 0 (taken (.domainConfig a b c d e f) x))
      ∧ 11 < (12 : Byte).toNat ∧ 1 < (2 : Byte).toNat ∧ (11 : Byte).toNat = (11 : Fin 12).val
      ∧ (11 : Byte) ≠ 0 ∧ on.dsc.domains[(11 : Fin 12)].enable = true ∧ on.dsc.domains[(11 : Fin 12)].state = .on
      ∧ live.dsc.domains[(11 : Fin 12)].enable = true ∧ live.dsc.domains[(11 : Fin 12)].state = .off
      ∧ off.dsc.domains[(11 : Fin 12)].enable = false ∧ off.dsc.domains[(11 : Fin 12)].state = .off
      ∧ off.dsc.isDemanded 11 = false ∧ demanded.dsc.isDemanded 11 = true ∧ demanded.dsc.masterOpen = true := by
  refine ⟨?_, by decide +kernel⟩
  rintro x (rfl | rfl | rfl | rfl) a b c d e f <;> exact takes _ _ rfl rfl rfl rfl

/-- CLEAR_FAULT on LATCHED with and without demand, and on OFF; MASTER with each setting, held and changed. -/
theorem witness_ClearFaultAndMaster :
    let s := withDomain live 11 fun d => { d with state := .latched, attempts := 4 }
    let demanded := { s with dsc := { s.dsc with holdDemand := 0x800 } }
    let closed := { live with dsc := { live.dsc with masterOpen := false } }
    (∀ x : State, x = live ∨ x = s ∨ x = demanded ∨ x = closed →
        (∀ a, Takes (.clearFault a) x 0 (taken (.clearFault a) x)) ∧ ∀ a, Takes (.master a) x 0 (taken (.master a) x))
      ∧ 11 < (12 : Byte).toNat ∧ (11 : Byte).toNat = (11 : Fin 12).val
      ∧ s.dsc.domains[(11 : Fin 12)].state = .latched ∧ s.dsc.isDemanded 11 = false
      ∧ demanded.dsc.domains[(11 : Fin 12)].state = .latched ∧ demanded.dsc.isDemanded 11 = true
      ∧ demanded.dsc.usable 11 = true ∧ live.dsc.domains[(11 : Fin 12)].state = .off
      ∧ 1 < (2 : Byte).toNat ∧ (1 : Byte).toNat ≤ 1 ∧ live.dsc.masterOpen = ((1 : Byte) == 1)
      ∧ live.dsc.masterOpen ≠ ((0 : Byte) == 1) ∧ closed.dsc.masterOpen ≠ ((1 : Byte) == 1) := by
  refine ⟨?_, by decide +kernel⟩
  rintro x (rfl | rfl | rfl | rfl) <;> exact ⟨fun _ => takes _ _ rfl rfl rfl rfl, fun _ => takes _ _ rfl rfl rfl rfl⟩

/-! #### Time -/

theorem witness_TheClockAdvancesWithItsCarries :
    let s := { live with tmb := { live.tmb with second := 59, minute := 1439, day := 6 } }
    s.held = false ∧ s.tmb.second ≤ 59 ∧ s.tmb.minute ≤ 1439 ∧ s.tmb.day ≤ 6
      ∧ (run (.oneSecondExpiry 0 0) s).tmb = { live.tmb with phase := 0 } := by decide +kernel

theorem witness_SetClockWritesTheClockAlone :
    (∀ day minute second, Takes (.setClock day minute second) live 0 (taken (.setClock day minute second) live))
      ∧ (6 : Byte).toNat ≤ 6 ∧ (1439 : BitVec 16).toNat ≤ 1439 ∧ (59 : Byte).toNat ≤ 59
      ∧ 6 < (7 : Byte).toNat ∧ 1439 < (1440 : BitVec 16).toNat ∧ 59 < (60 : Byte).toNat :=
  ⟨fun _ _ _ => takes_live _, by decide, by decide, by decide, by decide, by decide, by decide⟩

theorem witness_TimeoutCodesDecodeToDurations :
    duration 1 = some 1 ∧ duration 165 = some 86400 ∧ (1 : Fin 166) < 165 ∧ duration 0 = none
      ∧ (165 : Byte).toNat ≤ 165 ∧ 165 < (166 : Byte).toNat := by decide

/-- A table in which a hold expires and one starts is sound. -/
theorem witness_TheHoldSecondCountsExpiresAndStarts_sound :
    let due := { scheduled with countdown := some 1 }
    let s := table live [(2, { active with remaining := some 1 }), (5, due)]
    s.held = false ∧ tableSound s := by
  intro due s
  have e : ∀ i : Fin 48, (s.htm.slots[i].hold.all fun h => h = { active with remaining := some 1 } ∨ h = due) = true := by
    decide +kernel
  refine ⟨rfl, ⟨fun i h hh => ?_, by decide +kernel, by decide +kernel, by decide +kernel, fun c hc => ?_⟩⟩
  · have := e i
    rw [hh] at this
    obtain rfl | rfl := of_decide_eq_true this
    · exact ⟨by decide, ⟨rfl, by decide, fun _ => ⟨1, rfl, by decide, by decide⟩, rfl, (by intro n hn; cases hn)⟩,
        by decide, (by intro m hm; cases hm), (by intro c hc; cases hc), by decide,
        ⟨by decide, by decide, by decide, by decide, by decide⟩⟩
    · exact ⟨by decide, ⟨⟨1, rfl, by decide, by decide⟩, rfl, rfl⟩,
        by decide, (by intro m hm; cases hm), (by intro c hc; cases hc), by decide,
        ⟨by decide, by decide, by decide, by decide, by decide⟩⟩
  · obtain h | h | ⟨n, h⟩ := hc <;> cases h

/-- A hold in each case of the hold second; and each alone. -/
theorem witness_TheHoldSecondCountsExpiresAndStarts :
    let endless := (Hold.fresh 32 1 4 0).begun
    let due := { scheduled with countdown := some 1 }
    let s := table live [(0, endless), (1, active), (2, { active with remaining := some 1 }), (3, repeating),
      (4, scheduled), (5, due)]
    let red := table (atTier live .exhausted) [(5, due)]
    s.held = false ∧ s.htm.slots[(6 : Fin 48)].hold = none
      ∧ s.htm.slots[(0 : Fin 48)].hold = some endless ∧ endless.state ≠ .scheduled ∧ endless.code.val = 0
      ∧ endless.remaining = none
      ∧ s.htm.slots[(1 : Fin 48)].hold = some active ∧ active.code.val ≠ 0 ∧ active.remaining = some (28 + 2)
      ∧ s.htm.slots[(2 : Fin 48)].hold = some { active with remaining := some 1 } ∧ active.interval = none
      ∧ s.htm.slots[(3 : Fin 48)].hold = some repeating ∧ repeating.remaining = some 1 ∧ repeating.interval = some 1
      ∧ s.htm.slots[(4 : Fin 48)].hold = some scheduled ∧ scheduled.countdown = some (58 + 2)
      ∧ s.htm.slots[(5 : Fin 48)].hold = some due ∧ due.state = .scheduled ∧ due.countdown = some 1
      ∧ s.admits (some 5) due.cls due.mask due.code = true
      ∧ red.held = false ∧ red.htm.slots[(5 : Fin 48)].hold = some due
      ∧ red.admits (some 5) due.cls due.mask due.code = false := by decide +kernel

/-! #### Wake sources and templates -/

/-- A pin that is activated with and without debounce, released while it bounces and while it is HELD, and a level
that is no change. -/
theorem witness_PinMachinesDebounceTheirLevel :
    let s := fun (st : PinState) (w : BitVec 8) (n : Nat) => ({ live with inputs := { live.inputs with wake := w } }).withPin
      7 { activeHigh := false, debounce := n, state := st, timer := none }
    let p := fun (x : State) => x.wsu.pins[(7 : Fin 8)]
    (s .ready 0xFF 15).held = false ∧ true = (s .ready 0xFF 15).inputs.wake.getLsbD 7
      ∧ false ≠ (s .ready 0xFF 15).inputs.wake.getLsbD 7 ∧ false = (p (s .ready 0xFF 15)).activeHigh
      ∧ (p (s .ready 0xFF 15)).state = .ready ∧ 0 < (p (s .ready 0xFF 15)).debounce
      ∧ (p (s .ready 0xFF 0)).debounce = 0
      ∧ true ≠ (s .debouncing 0x7F 1).inputs.wake.getLsbD 7 ∧ true ≠ (p (s .debouncing 0x7F 1)).activeHigh
      ∧ (p (s .debouncing 0x7F 1)).state = .debouncing ∧ (p (s .held 0x7F 1)).state = .held := by decide +kernel

theorem witness_EventsQualifyByTheirWindows :
    let x := Source.reset 0
    let y : Source := { x with winT := ⟨true, false, .green⟩ }
    x.winA.enable = false ∧ x.winB.enable = false ∧ x.winT.enable = false ∧ y.winT.enable = true ∧ y.logicAnd = false
      ∧ ({ y with logicAnd := true } : Source).logicAnd = true := by decide

/-- An event that does not qualify, one that finds its source disarmed, one that is handed over; and the outcomes. -/
theorem witness_WakeEventsAreJudgedAndAnswered :
    let s := fun (once always tier : Bool) => (atTier live .red).withSource 15
      { Source.reset 15 with armOnce := once, armAlways := always, winT := ⟨tier, false, .green⟩ }
    let x := fun (s : State) => s.wsu.sources[(15 : Fin 16)]
    let q := fun (s : State) => (x s).qualifies s.tmb s.tau.effective
    (s false false true).held = false ∧ q (s true true true) = false ∧ q (s false false false) = true
      ∧ (x (s false false false)).armOnce = false ∧ (x (s false false false)).armAlways = false
      ∧ q (s true false false) = true ∧ (x (s true false false)).armOnce = true
      ∧ (x (s false true false)).armAlways = true := by decide +kernel

/-- An application that coalesces, one at its owner's limit, one that finds a FREE slot, one that finds no room, and one
that evicts. -/
theorem witness_ApplicationsCoalesceOrCreate :
    let mine := { ownedBy 63 with template := some 15 }
    let s := table live [(1, mine)]
    let two := table live [(1, ownedBy 63), (2, ownedBy 63)]
    let victim := { suspended with owner := 33 }
    let evicts := (full live (ownedBy 33)).withHtm ((full live (ownedBy 33)).htm.putHold 47 victim)
    s.held = false ∧ s.htm.slots[(1 : Fin 48)].hold = some mine ∧ mine.owner.val = 48 + (15 : Fin 16).val
      ∧ mine.template = some 15 ∧ (∀ j : Fin 48, j < 1 → s.htm.slots[j].hold = none)
      ∧ two.htm.srcLimit ≤ two.htm.ownerCount 63 ∧ s.htm.ownerCount 63 < s.htm.srcLimit
      ∧ live.htm.slots[(1 : Fin 48)].hold = none ∧ (∀ j : Fin 48, j < 1 → live.htm.slots[j].hold ≠ none)
      ∧ (∀ i : Fin 48, (full live (ownedBy 33)).htm.slots[i].hold = some (ownedBy 33)) ∧ (ownedBy 33).state ≠ .suspended
      ∧ (∀ j : Fin 48, evicts.htm.slots[j].hold ≠ none) ∧ evicts.htm.slots[(47 : Fin 48)].hold = some victim
      ∧ victim.state = .suspended
      ∧ (∀ j : Fin 48, j ≠ 47 → evicts.htm.slots[j].hold = some (ownedBy 33)) := by decide +kernel

/-- An owner-47 hold of code 0; one that a longer and a shorter code meet; none, with room, without, and with a hold that
gives way. -/
theorem witness_TheHostHoldIsRenewedOrCreated :
    let endless := { bootHold with code := 0, remaining := none }
    let s := table live [(0, endless)]
    live.held = false ∧ s.htm.slots[(0 : Fin 48)].hold = some endless ∧ endless.owner = 47 ∧ endless.code.val = 0
      ∧ live.htm.slots[(0 : Fin 48)].hold = some bootHold ∧ bootHold.owner = 47 ∧ bootHold.code.val ≠ 0
      ∧ bootHold.remaining = some 60 ∧ duration 61 = some 120 ∧ 60 < 120 ∧ duration 60 = some 60 ∧ 60 ≤ 60
      ∧ (∀ i : Fin 48, (table live []).htm.slots[i].hold = none)
      ∧ (∀ i : Fin 48, (full live active).htm.slots[i].hold = some active) ∧ active.state ≠ .suspended
      ∧ active.owner ≠ 47
      ∧ (∀ i : Fin 48, (full live suspended).htm.slots[i].hold = some suspended) ∧ suspended.state = .suspended := by
  decide +kernel

/-- Arguments in range for a pin source and a filter source, with the polarity kept and changed, and out of range. -/
theorem witness_SourceConfigStoresOneSource :
    let w : ClockArgs := { enable := 1, area := 1, start := 1439, stop := 0, days := 0xFF }
    let a : SourceArgs :=
      { source := 7, polarity := 1, debounce := 255, armOnce := 1, armAlways := 0, template := 15, logic := 1, winA := w,
        winB := w, tierEnable := 1, tierArea := 1, minTier := 3 }
    (∀ x, Takes (.sourceConfig x) live 0 (taken (.sourceConfig x) live))
      ∧ a.source.toNat ≤ 15 ∧ a.polarity.toNat ≤ 1 ∧ a.template.toNat ≤ 15 ∧ w.start.toNat ≤ 1439
      ∧ a.minTier.toNat ≤ 3 ∧ a.source.toNat = (7 : Fin 16).val
      ∧ ((a.polarity == 1) ≠ live.wsu.pins[(7 : Fin 8)].activeHigh)
      ∧ (((0 : Byte) == 1) = live.wsu.pins[(7 : Fin 8)].activeHigh)
      ∧ ({ a with source := 15 } : SourceArgs).source.toNat = (15 : Fin 16).val
      ∧ ¬ ({ a with source := 16 } : SourceArgs).source.toNat ≤ 15 :=
  ⟨fun _ => takes_live _, by decide +kernel⟩

theorem witness_TemplatesAndFiltersAreStored :
    (∀ a b c d e f, Takes (.templateConfig a b c d e f) live 0 (taken (.templateConfig a b c d e f) live))
      ∧ (∀ a b c d e f g h, Takes (.filterConfig a b c d e f g h) live 0 (taken (.filterConfig a b c d e f g h) live))
      ∧ 15 < (16 : Byte).toNat ∧ (15 : Byte).toNat = (15 : Fin 16).val ∧ (0x0FFF : BitVec 16).setWidth 12 ≠ 0
      ∧ (0xF000 : BitVec 16).setWidth 12 = 0 ∧ (7 : Byte).toNat = (7 : Fin 8).val ∧ 7 < (8 : Byte).toNat
      ∧ (0x7FF : BitVec 16).toNat ≤ 0x7FF ∧ 0x7FF < (0x800 : BitVec 16).toNat ∧ (1 : Byte).toNat ≤ 1
      ∧ 1 < (2 : Byte).toNat :=
  ⟨fun _ _ _ _ _ _ => takes_live _, fun _ _ _ _ _ _ _ _ => takes_live _, by decide⟩

/-! #### Supply and mode -/

/-- The monitor enabled and disabled; a calibration at its first samples and at its fourth, with the average at and
beyond each end of the range. -/
theorem witness_ConversionsFormCodeCeilingAndCurrent :
    let cal := fun (n : Nat) (sum : Int) =>
      { live with spm := { live.spm with cal := .running, calCount := n, calSum := sum, shorted := true } }
    live.held = false ∧ live.spm.cal ≠ .running ∧ live.spm.monitor = true
      ∧ ({ live with spm := { live.spm with monitor := false } } : State).spm.monitor = false
      ∧ (cal 2 0).spm.cal = .running ∧ (cal 2 0).spm.calCount < 3 ∧ (cal 3 (-256)).spm.calCount = 3
      ∧ -64 ≤ Int.fdiv ((cal 3 (-256)).spm.calSum + max (-1024) (min 0 16383)) 4
      ∧ Int.fdiv ((cal 3 255).spm.calSum + max (-1024) (min 0 16383)) 4 ≤ 63
      ∧ Int.fdiv ((cal 3 (-257)).spm.calSum + max (-1024) (min 0 16383)) 4 < -64
      ∧ 63 < Int.fdiv ((cal 3 256).spm.calSum + max (-1024) (min 0 16383)) 4 := by decide +kernel

/-- The abort of a CLEAR before and after its clearing, as its own part; then those of the statement. -/
theorem witness_theAbortOfAClear :
    let cal := { live with spm := { live.spm with cal := .running, calCount := 3, shorted := true } }
    let before := run .clear cal
    let after := run .clearFlags before
    TakesPart .calibrationAbort before (before.takeOutstanding 0 .calibrationAbort) ∧ before.spm.cal = .running
      ∧ before.ctp.nextFor .calibrationAbort = some (0, .calibrationAbort) ∧ (0, .clearFlags) ∈ before.ctp.outstanding
      ∧ TakesPart .calibrationAbort after (after.takeOutstanding 0 .calibrationAbort) ∧ after.spm.cal = .running
      ∧ after.ctp.nextFor .calibrationAbort = some (0, .calibrationAbort) ∧ (0, .clearFlags) ∉ after.ctp.outstanding
      ∧ (run .calibrationAbort before).endedByClear = [some 0] ∧ (run .calibrationAbort after).endedByClear = [] := by
  refine ⟨⟨?_, ?_⟩, ?_, ?_, ?_, ⟨?_, ?_⟩, ?_⟩ <;> decide +kernel

theorem witness_CalibrationAndSettingsAreTaken :
    let cal := { live with spm := { live.spm with cal := .running, calCount := 3, shorted := true } }
    let entered := { cal with handed := [.calibrationAbort] }
    let meeting := abortsMeeting
    Takes .calibrate live 0 (taken .calibrate live) ∧ (taken .calibrate live).spm.cal ≠ .running
      ∧ TakesPart .calibrationAbort cal cal ∧ .calibrationAbort ∉ cal.handed
      ∧ TakesPart .calibrationAbort live live ∧ live.spm.cal ≠ .running
      ∧ entered.held = false ∧ .calibrationAbort ∈ entered.handed ∧ (entered.take .calibrationAbort).spm.cal = .running
      ∧ entered.ctp.outstanding = [] ∧ meeting.held = false ∧ meeting.abortsMeet = true
      ∧ TakesPart .calibrationAbort meeting.countChoice (meeting.countChoice.takeOutstanding 0 .calibrationAbort)
      ∧ (meeting.countChoice.take .calibrationAbort).spm.cal = .running
      ∧ Takes .calibrate cal 0 (taken .calibrate cal) ∧ (taken .calibrate cal).spm.cal = .running ∧ cal.held = false
      ∧ cal.spm.cal = .running ∧ cal.spm.calCount = 3
      ∧ (∀ a b, Takes (.voltageConfig a b) live 0 (taken (.voltageConfig a b) live))
      ∧ (∀ a, Takes (.currentConfig a) live 0 (taken (.currentConfig a) live))
      ∧ (∀ a, Takes (.modeConfig a) live 0 (taken (.modeConfig a) live))
      ∧ (252 : Byte).toNat + 3 ≤ (255 : Byte).toNat ∧ (255 : Byte).toNat < (253 : Byte).toNat + 3
      ∧ 1 < (2 : Byte).toNat :=
  ⟨takes_live _, by decide, takes_part _ _ rfl rfl, by decide, takes_part _ _ rfl rfl, by decide, rfl, by decide, rfl,
    rfl, rfl, by decide +kernel, ⟨rfl, by decide +kernel⟩, rfl, takes _ _ rfl rfl rfl rfl, by decide, rfl, rfl, rfl, fun _ _ => takes_live _, fun _ => takes_live _,
    fun _ => takes_live _, by decide, by decide, by decide⟩

/-- The raw level as it was, away from the debounced state and back to it; each entry of the mode. -/
theorem witness_IgnitionMovesTheMode :
    let s := fun (raw deb : Bool) (m : Mode) (delay : Nat) => { live with
      inputs := { live.inputs with ign := raw }
      mdc := { live.mdc with ign := deb, mode := m, parkDelay := delay, ignTimer := some 0 } }
    live.held = false ∧ false = live.inputs.ign ∧ true ≠ live.inputs.ign ∧ true ≠ live.mdc.ign
      ∧ (s true false .park 30).inputs.ign = true ∧ false ≠ (s true false .park 30).inputs.ign
      ∧ false = (s true false .park 30).mdc.ign ∧ (s true false .park 30).mdc.ignTimer.isSome = true
      ∧ (s true false .park 30).mdc.mode ≠ .run ∧ (s false true .run 1).mdc.mode = .run
      ∧ 0 < (s false true .run 1).mdc.parkDelay ∧ (s false true .run 0).mdc.parkDelay = 0
      ∧ (s true true .run 1).mdc.mode = .run ∧ live.mdc.ignTimer = none
      ∧ (s false false .parkPending 1).mdc.mode = .parkPending ∧ live.mdc.mode ≠ .parkPending := by decide +kernel

theorem witness_ParkNowIsTaken :
    let s := { live with mdc := { live.mdc with mode := .parkPending, parkTimer := some 1 } }
    Takes .parkNow s 0 (taken .parkNow s) ∧ (taken .parkNow s).mdc.mode = .parkPending
      ∧ Takes .parkNow live 0 (taken .parkNow live) ∧ (taken .parkNow live).mdc.mode ≠ .parkPending :=
  ⟨takes _ _ rfl rfl rfl rfl, rfl, takes_live _, by decide⟩

/-! #### The body network -/

/-- A frame in the extended format, a disabled listener, a frame that does not join, one too many, one that waits, one
answered at once and one handed to the HTM. -/
theorem witness_ReceptionWakesAndQueues :
    let f := fun (ext : Bool) (ident : BitVec 11) => CanFrame.mk ext ident false 8 [4, 20, 7, 4, 0, 0, 0, 0]
    let off := live.withBnl { live.bnl with enable := false }
    let busy := live.withBnl { live.bnl with buffer := .reserved, queue := [[4, 20, 7, 4, 0, 0, 0, 0]] }
    let many := live.withBnl { live.bnl with buffer := .reserved, queue := List.replicate 2 [4, 20, 7, 4, 0, 0, 0, 0] }
    live.held = false ∧ (f true 0x5E4).extended = true ∧ off.bnl.enable = false ∧ (f false 0x5E5).extended = false
      ∧ live.bnl.enable = true ∧ (f false 0x5E5).ident ≠ live.bnl.serviceId
      ∧ (f false 0x5E4).ident = live.bnl.serviceId ∧ ((f false 0x5E4).data.take (min 8 8)).length = 8
      ∧ 2 ≤ many.bnl.queue.length ∧ busy.bnl.queue.length ≤ 1 ∧ busy.bnl.buffer ≠ .empty
      ∧ live.bnl.queue = [] ∧ live.bnl.buffer = .empty ∧ judgeService [5, 20, 7, 4, 0, 0, 0, 0] = .answer .unknown
      ∧ judgeService [4, 20, 7, 4, 0, 0, 0, 0] = .operation (.networkQuery 20 ⟨7, 4⟩) := by decide +kernel

theorem witness_ServiceFramesAreDecodedAndAnswered :
    4 < (5 : Byte).toNat ∧ 1 ≤ (1 : Byte).toNat ∧ (4 : Byte).toNat ≤ 4 ∧ 31 < (32 : Byte).toNat ∧ (31 : Byte).toNat ≤ 31
      ∧ 86400 < 2 ^ 20 ∧ 604800 < 2 ^ 20 := by decide

/-- The answer buffer in each of its states, with and without the cancel mark and frames queued; and a disable. -/
theorem witness_AnswersAreHeldSentAndLost :
    let s := fun (b : AnswerState) (c : Bool) (q : List (List Byte)) =>
      live.withBnl { live.bnl with buffer := b, cancel := c, queue := q, answer := some (List.replicate 8 0) }
    (∀ b c q, TakesPart .clearService (s b c q) (s b c q))
      ∧ (s .reserved true [[3, 12, 2, 9, 0, 0, 0, 0]]).bnl.queue = [3, 12, 2, 9, 0, 0, 0, 0] :: []
      ∧ (s .reserved true [[0, 12, 2, 9, 0, 0, 0, 0]]).bnl.queue = [0, 12, 2, 9, 0, 0, 0, 0] :: []
      ∧ (s .reserved true [[0, 12, 2, 9, 0, 0, 0, 0]]).bnl.cancel = true
      ∧ (s .reserved false []).held = false ∧ (s .reserved false []).bnl.buffer = .reserved
      ∧ (s .reserved true []).bnl.cancel = true ∧ (s .reserved true []).bnl.queue = []
      ∧ (s .full false []).bnl.buffer = .full ∧ (s .full false []).bnl.enable = true
      ∧ (s .full false []).bnl.answer = some (List.replicate 8 0) ∧ (s .full false []).bnl.buffer ≠ .reserved
      ∧ (s .sending false []).bnl.buffer = .sending ∧ (s .sending false []).bnl.queue = []
      ∧ (s .sending false [[3, 12, 2, 9, 0, 0, 0, 0]]).bnl.queue = [3, 12, 2, 9, 0, 0, 0, 0] :: []
      ∧ judgeService [3, 12, 2, 9, 0, 0, 0, 0] = .operation (.networkRelease 12 ⟨2, 9⟩)
      ∧ judgeService [0, 12, 2, 9, 0, 0, 0, 0] = .answer .unknown ∧ live.bnl.buffer = .empty
      ∧ 1 < (2 : Byte).toNat ∧ 0x7FF < (0x800 : BitVec 16).toNat ∧ (0x7FF : BitVec 16).toNat ≤ 0x7FF
      ∧ (0x7FF : BitVec 16) ≠ 0x7FE :=
  ⟨fun _ _ _ => takes_part _ _ rfl rfl, by decide +kernel⟩

theorem witness_ServiceConfigIsTaken :
    let off := live.withBnl { live.bnl with enable := false }
    let busy := live.withBnl { live.bnl with buffer := .reserved }
    (∀ a b c, Takes (.serviceConfig a b c) live 0 (taken (.serviceConfig a b c) live))
      ∧ (∀ a b c, Takes (.serviceConfig a b c) off 0 (taken (.serviceConfig a b c) off))
      ∧ (∀ a b c, Takes (.serviceConfig a b c) busy 0 (taken (.serviceConfig a b c) busy))
      ∧ (taken (.serviceConfig 0 0 1) live).bnl.enable = true ∧ (taken (.serviceConfig 0 0 1) live).bnl.buffer = .empty
      ∧ (taken (.serviceConfig 0 0 1) off).bnl.enable = false
      ∧ (taken (.serviceConfig 0 0 1) busy).bnl.buffer = .reserved :=
  ⟨fun _ _ _ => takes_live _, fun _ _ _ => takes _ _ rfl rfl rfl rfl, fun _ _ _ => takes _ _ rfl rfl rfl rfl, rfl, rfl, rfl, rfl⟩

/-! #### Events and what software reads -/

/-- A transition at level WAKE_HOST, and a setting that makes none; levels in range and out of it. -/
theorem witness_FlagsDriveAttentionAndWakeTheHost :
    let s := { live with evu := { live.evu with levels := live.evu.levels.set 15 .wakeHost } }
    let ended := { s with handed := [.flagSetting 0x8000], endedByClear := [none] }
    live.held = false ∧ (∀ n : Fin 16, live.evu.levels[n] ≠ .wakeHost)
      ∧ (0x8000 : FlagSet).getLsbD 15 = true ∧ s.evu.pending.getLsbD 15 = false ∧ s.evu.levels[(15 : Fin 16)] = .wakeHost
      ∧ (∀ k, Takes (.events k) live 0 (taken (.events k) live))
      ∧ (∀ l c, Takes (.eventEnable l c) live 0 (taken (.eventEnable l c) live))
      ∧ (∃ f : Fin 16, 2 < ((3 : BitVec 128).extractLsb' (8 * (15 - f.val)) 8).toNat)
      ∧ (∀ f : Fin 16, ((2 : BitVec 128).extractLsb' (8 * (15 - f.val)) 8).toNat ≤ 2)
      ∧ TakesPart .clearFlags live live ∧ none ∉ live.endedByClear
      ∧ TakesPart .clearFlags ended ended ∧ none ∈ ended.endedByClear :=
  ⟨rfl, by decide +kernel, by decide, by decide +kernel, by decide +kernel, fun _ => takes_live _, fun _ _ => takes_live _,
    by decide, by decide, takes_part _ _ rfl rfl, by decide +kernel, takes_part _ _ rfl rfl, by decide +kernel⟩

theorem witness_StatusCommandsReadWhatStands :
    (∀ c, Takes c live 0 (taken c live)) ∧ 11 < (12 : Byte).toNat ∧ (11 : Byte).toNat = (11 : Fin 12).val
      ∧ 15 < (16 : Byte).toNat ∧ (15 : Byte).toNat = (15 : Fin 16).val ∧ (7 : Fin 8).val = (7 : Fin 16).val
      ∧ 7 < (15 : Fin 16).val :=
  ⟨takes_live, by decide⟩

end Sys2Proof.Tests
end

/-! ### Admission (R35, R36): the marginal domains bit by bit, and the test as two conditions -/

namespace Sys2Proof.Machine

/-- A covered domain has an ACTIVE hold outside the candidate's own slot; SCHEDULED and SUSPENDED holds cover nothing
(R36). -/
theorem Htm.coveredExcept_iff_exists_active (t : Htm) (own : Option (Fin 48)) (d : Nat) :
    (t.coveredExcept own).getLsbD d = true ↔
      ∃ i : Fin 48, ∃ h, some i ≠ own ∧ t.slots[i].hold = some h ∧ h.state = .active ∧ h.mask.getLsbD d = true := by
  simp only [Htm.coveredExcept_getLsbD, Slot.activeMask_getLsbD, exists_and_left]

/-- A domain is marginal when the candidate asks for it and nothing else covers it. -/
theorem State.marginal_getLsbD (s : State) (own : Option (Fin 48)) (mask : DomainSet) (d : Fin 12) :
    (s.marginal own mask).getLsbD d.val = true ↔
      mask.getLsbD d.val = true ∧ ¬ (s.htm.coveredExcept own).getLsbD d.val = true := by
  simp [State.marginal]

theorem Tau.floorOk_iff (t : Tau) (cls : Fin 8) :
    t.floorOk cls = true ↔ t.classes[cls].floor.rank ≤ t.effective.rank :=
  decide_eq_true_iff

/-- The floor is tested in every mode, the budget only in PARK (R35). -/
theorem State.admits_iff (s : State) (own : Option (Fin 48)) (cls : Fin 8) (mask : DomainSet) (code : Fin 166) :
    s.admits own cls mask code = true ↔
      s.tau.classes[cls].floor.rank ≤ s.tau.effective.rank
      ∧ (s.tau.mode = .park → (s.cbu.remaining : Int) - s.costOf own mask code ≥ s.reserveOf cls) := by
  rw [State.admits, Bool.and_eq_true, Tau.floorOk_iff, Bool.or_eq_true, bne_iff_ne, decide_eq_true_iff,
    imp_iff_not_or]

/-- Settles O25: the marginal set is the one the model forms, its bits are read by `State.marginal_getLsbD`, and the
test comes apart by `State.admits_iff`; the cost and the reserve are those of the statement by definition. -/
theorem admissionWeighsFloorAndMarginalCost : Obligations.AdmissionWeighsFloorAndMarginalCost := by
  intro s own cls mask code
  refine ⟨s.marginal own mask, fun d => ?marginal, ?test⟩
  case marginal => rw [State.marginal_getLsbD, Htm.coveredExcept_iff_exists_active]
  case test => exact State.admits_iff s own cls mask code

end Sys2Proof.Machine

/-! ### Windows (R129 to R131): when a window is inside, and an event's qualification by the enabled windows -/

namespace Sys2Proof.Machine

/-- The interval of minutes runs from start to end, or past midnight where start is above end; with both equal it is
empty (R129). -/
theorem ClockWindow.inside_iff (w : ClockWindow) (c : Tmb) :
    w.inside c = true ↔
      c.unset = false ∧ w.days.getLsbD c.day = true
      ∧ ((w.start < w.stop ∧ w.start ≤ c.minute ∧ c.minute < w.stop)
        ∨ (w.stop < w.start ∧ (w.start ≤ c.minute ∨ c.minute < w.stop))) := by
  rw [ClockWindow.inside, Bool.and_eq_true, Bool.and_eq_true, Bool.not_eq_true', and_assoc]
  refine and_congr_right' (and_congr_right' ?_)
  rcases Nat.lt_trichotomy w.start w.stop with hlt | heq | hgt
  · simp [hlt, hlt.asymm]
  · simp [heq]
  · simp [hgt, hgt.asymm]

theorem TierWindow.inside_iff (w : TierWindow) (e : Tier) : w.inside e = true ↔ w.minTier.rank ≤ e.rank :=
  decide_eq_true_iff

/-- The area OUTSIDE inverts what the window says (R131). -/
theorem areaHolds_eq_xor (outside inside : Bool) : areaHolds outside inside = xor outside inside := by
  cases outside <;> simp [areaHolds]

/-- Each enabled window yields one condition, a disabled one none. -/
theorem Source.mem_conditions {x : Source} {c : Tmb} {e : Tier} {b : Bool} :
    b ∈ x.conditions c e ↔
      (x.winA.enable = true ∧ b = xor x.winA.outside (x.winA.inside c))
      ∨ (x.winB.enable = true ∧ b = xor x.winB.outside (x.winB.inside c))
      ∨ (x.winT.enable = true ∧ b = xor x.winT.outside (x.winT.inside e)) := by
  simp only [Source.conditions, areaHolds_eq_xor, List.mem_append, List.mem_ite_nil_right, List.mem_singleton,
    or_assoc]

theorem Source.conditions_eq_nil_iff {x : Source} {c : Tmb} {e : Tier} :
    x.conditions c e = [] ↔ x.winA.enable = false ∧ x.winB.enable = false ∧ x.winT.enable = false := by
  simp [Source.conditions]

/-- With no window enabled every event qualifies, under either logic (R131). -/
theorem Source.qualifies_of_disabled {x : Source} (c : Tmb) (e : Tier) (hA : x.winA.enable = false)
    (hB : x.winB.enable = false) (hT : x.winT.enable = false) : x.qualifies c e = true := by
  have hnil : x.conditions c e = [] := Source.conditions_eq_nil_iff.2 ⟨hA, hB, hT⟩
  simp [Source.qualifies, hnil]

/-- Under OR, one condition that holds is enough. -/
theorem Source.qualifies_or_iff {x : Source} {c : Tmb} {e : Tier} (hlogic : x.logicAnd = false)
    (hne : x.conditions c e ≠ []) : x.qualifies c e = true ↔ true ∈ x.conditions c e := by
  simp [Source.qualifies, hlogic, hne]

/-- Under AND, every condition has to hold; with no condition at all that is so too. -/
theorem Source.qualifies_and_iff {x : Source} {c : Tmb} {e : Tier} (hlogic : x.logicAnd = true) :
    x.qualifies c e = true ↔ ∀ b ∈ x.conditions c e, b = true := by
  simp only [Source.qualifies, hlogic, if_true, Bool.or_eq_true, List.isEmpty_iff, List.all_eq_true, id]
  exact or_iff_right_of_imp fun hnil b hb => absurd hb (by simp [hnil])

/-- After power-on reset each source has its reset settings, whatever state the reset found (R131). -/
theorem execPowerOnReset_sources (s : State) :
    ∃ t, exec .powerOnReset s = .next t ∧ ∀ n : Fin 16, t.wsu.sources[n] = Source.reset n :=
  ⟨_, rfl, fun n => by simp [State.powerOn, State.inReset, Wsu.reset]⟩

theorem Source.reset_qualifies (n : Fin 16) (c : Tmb) (e : Tier) : (Source.reset n).qualifies c e = true :=
  Source.qualifies_of_disabled c e rfl rfl rfl

/-- Settles O46: the two windows by their own laws, the qualification by the conditions of the enabled windows
(`Source.mem_conditions`) under each logic, and the reset by the source's reset settings. -/
theorem eventsQualifyByTheirWindows : Obligations.EventsQualifyByTheirWindows := by
  refine ⟨⟨ClockWindow.inside_iff, TierWindow.inside_iff⟩, fun x c e => ⟨Source.qualifies_of_disabled c e, ?enabled⟩,
    fun s => ?reset⟩
  case enabled =>
    intro hany
    have hne : x.conditions c e ≠ [] := by
      rw [Ne, Source.conditions_eq_nil_iff]
      rintro ⟨hA, hB, hT⟩
      simp [hA, hB, hT] at hany
    refine ⟨fun hor => ?or, fun hand => ?and⟩
    case or => simp only [Source.qualifies_or_iff hor hne, Source.mem_conditions, eq_comm (a := true)]
    case and =>
      simp only [Source.qualifies_and_iff hand, Source.mem_conditions, or_imp, forall_and, and_imp,
        forall_comm (α := Bool), forall_eq]
  case reset =>
    obtain ⟨t, hexec, hsources⟩ := execPowerOnReset_sources s
    refine ⟨t, hexec, fun n => ?_⟩
    rw [hsources n]
    exact ⟨rfl, rfl, rfl, rfl, Source.reset_qualifies n⟩

end Sys2Proof.Machine

/-! ### Wake filters (R126, R127): agreement under a mask, bit by bit -/

namespace Sys2Proof.Machine

/-- Two words agree under a mask when they agree at each bit position where the mask holds a 1. -/
theorem and_mask_eq_iff {w : Nat} (x y mask : BitVec w) :
    x &&& mask = y &&& mask ↔ ∀ b : Nat, b < w → mask.getLsbD b = true → x.getLsbD b = y.getLsbD b := by
  simp only [BitVec.eq_of_getLsbD_eq_iff, BitVec.getLsbD_and]
  refine forall₂_congr fun b _ => ?_
  cases mask.getLsbD b <;> simp

/-- A frame that does not carry the byte does not meet the condition (R127). -/
theorem DataCond.met_iff (c : DataCond) (bytes : List Byte) :
    c.met bytes = true ↔ ∃ y, bytes[c.index.val]? = some y
      ∧ ∀ b : Nat, b < 8 → c.valueMask.getLsbD b = true → y.getLsbD b = c.value.getLsbD b := by
  cases hbyte : bytes[c.index.val]? with
  | none => simp [DataCond.met, hbyte]
  | some y => simp [DataCond.met, hbyte, and_mask_eq_iff]

/-- A filter without a data condition asks nothing of the data bytes (R126). -/
theorem Filter.matchesFrame_iff (x : Filter) (ident : BitVec 11) (bytes : List Byte) :
    x.matchesFrame ident bytes = true ↔
      x.enable = true ∧ ident &&& x.mask = x.ident &&& x.mask ∧ ∀ c, x.data = some c → c.met bytes = true := by
  rw [Filter.matchesFrame, Bool.and_eq_true, Bool.and_eq_true, beq_iff_eq, and_assoc]
  cases hdata : x.data with
  | none => simp
  | some c => simp

/-- Settles O55: a filter's three conditions, with the agreement under the identifier mask and under the value mask
both read by `and_mask_eq_iff`. -/
theorem filtersMatchByMaskAndData : Obligations.FiltersMatchByMaskAndData := by
  intro x ident bytes
  simp only [Filter.matchesFrame_iff, and_mask_eq_iff, DataCond.met_iff]

end Sys2Proof.Machine

/-! ### The sweeps over the hold table, slot by slot (R44, R108 to R113) -/

namespace Sys2Proof.Machine

/-! #### A pass over the slots in which each turn changes its own slot alone -/

section
variable {α β : Type} {f : α → Fin 48 → α} {slotOf : α → Fin 48 → β}

/-- Turns at other slots leave a slot as it was. -/
theorem foldl_slots_of_not_mem (hother : ∀ a i j, j ≠ i → slotOf (f a i) j = slotOf a j) (is : List (Fin 48)) (a : α)
    {j : Fin 48} (hj : j ∉ is) : slotOf (is.foldl f a) j = slotOf a j := by
  induction is generalizing a with
  | nil => rfl
  | cons i is ih =>
    rw [List.mem_cons, not_or] at hj
    exact (ih (f a i) hj.2).trans (hother a i j hj.1)

theorem mem_take_allSlots {i j : Fin 48} : j ∈ allSlots.take i.val ↔ j < i := by
  simp only [allSlots, List.mem_take_iff_getElem, List.getElem_finRange, List.length_finRange]
  constructor
  · rintro ⟨k, hk, rfl⟩
    exact (lt_min_iff.mp hk).1
  · intro h
    exact ⟨j.val, lt_min h j.isLt, rfl⟩

theorem allSlots_eq_append (i : Fin 48) : allSlots = allSlots.take i.val ++ i :: allSlots.drop (i.val + 1) := by
  conv_lhs => rw [← List.take_append_drop i.val allSlots]
  congr 1
  rw [List.drop_eq_getElem_cons (by simp [allSlots])]
  simp [allSlots]

theorem mem_drop_allSlots {i j : Fin 48} (h : j ∈ allSlots.drop (i.val + 1)) : i < j := by
  have hs : allSlots.Pairwise (· < ·) := List.pairwise_lt_finRange 48
  rw [allSlots_eq_append i, List.pairwise_append] at hs
  exact List.rel_of_pairwise_cons hs.2.1 h

/-- At the turn of a slot, with the turns `pre` taken, the lower slots stand as the pass leaves them, the others as it
found them; and its own turn decides how the pass leaves it. -/
theorem foldl_slots_turn (hother : ∀ a i j, j ≠ i → slotOf (f a i) j = slotOf a j) (a : α) (i : Fin 48)
    {all : List (Fin 48)} (hall : all = allSlots) :
    ∃ pre : List (Fin 48), (∀ j, j < i → slotOf (pre.foldl f a) j = slotOf (all.foldl f a) j)
      ∧ (∀ j, i ≤ j → slotOf (pre.foldl f a) j = slotOf a j)
      ∧ slotOf (all.foldl f a) i = slotOf (f (pre.foldl f a) i) i := by
  subst hall
  have hsplit : allSlots.foldl f a =
      (allSlots.drop (i.val + 1)).foldl f (f ((allSlots.take i.val).foldl f a) i) := by
    conv_lhs => rw [allSlots_eq_append i, List.foldl_append, List.foldl_cons]
  refine ⟨allSlots.take i.val, fun j hj => ?_, fun j hj => ?_, ?_⟩
  · rw [hsplit, foldl_slots_of_not_mem hother _ _ fun hm => absurd (mem_drop_allSlots hm) (not_lt.mpr hj.le),
      hother _ _ _ hj.ne]
  · exact foldl_slots_of_not_mem hother _ _ fun hm => absurd (mem_take_allSlots.mp hm) (not_lt.mpr hj)
  · rw [hsplit, foldl_slots_of_not_mem hother _ _ fun hm => absurd (mem_drop_allSlots hm) (lt_irrefl i)]

end

/-- The slots in ascending order, as a list that is not to be looked into. -/
theorem exists_allSlots : ∃ all, all = allSlots := ⟨_, rfl⟩

theorem State.resumeSweep_eq (s : State) : s.resumeSweep = allSlots.foldl resumeSlot (s, []) := rfl

/-! #### A slot after a change of the table -/

theorem Htm.putHold_slot (t : Htm) (i j : Fin 48) (h : Hold) :
    (t.putHold i h).slots[j]'j.2 = if i = j then { t.slots[j]'j.2 with hold := some h } else t.slots[j]'j.2 := by
  simp only [Fin.getElem_fin, Htm.putHold_slots, Fin.ext_iff]

theorem Htm.retire_slot (t : Htm) (i j : Fin 48) :
    (t.retire i).slots[j]'j.2 = if i = j then { gen := (t.slots[j]'j.2).gen + 1, hold := none } else t.slots[j]'j.2 := by
  simp only [Fin.getElem_fin, Htm.retire_slots, Fin.ext_iff]

theorem Htm.mapHolds_slot (t : Htm) (f : Hold → Hold) (j : Fin 48) :
    (t.mapHolds f).slots[j]'j.2 = { t.slots[j]'j.2 with hold := (t.slots[j]'j.2).hold.map f } := by
  simp only [Fin.getElem_fin, Htm.mapHolds_slots]

/-- What retiring the holds that satisfy `p` makes of a slot (R12). -/
def retiredSlot (p : Hold → Bool) (sl : Slot) : Slot :=
  match sl.hold with
  | some h => if p h then { gen := sl.gen + 1, hold := none } else sl
  | none => sl

theorem Htm.retireWhere_slot (t : Htm) (p : Hold → Bool) (j : Fin 48) :
    (t.retireWhere p).slots[j]'j.2 = retiredSlot p (t.slots[j]'j.2) := by
  simp only [Fin.getElem_fin, Htm.retireWhere_slots]
  rfl

/-! #### The resume sweep -/

theorem foldl_resumeSlot_frame (is : List (Fin 48)) (acc : State × List DomainSet) :
    (is.foldl resumeSlot acc).1 = acc.1.withHtm (is.foldl resumeSlot acc).1.htm := by
  induction is generalizing acc with
  | nil => rfl
  | cons i is ih =>
    rw [List.foldl_cons, ih, resumeSlot_frame]
    rfl

/-- What one turn of a resume sweep makes of a slot: a SUSPENDED hold that passes admission is ACTIVE (R44). -/
def resumedSlot (s : State) (i : Fin 48) (sl : Slot) : Slot :=
  match sl.hold with
  | some h =>
    if h.state = .suspended && s.tau.floorOk h.cls && s.admits (some i) h.cls h.mask h.code then
      { sl with hold := some h.activated }
    else sl
  | none => sl

theorem resumeSlot_slot (acc : State × List DomainSet) (i : Fin 48) :
    (resumeSlot acc i).1.htm.slots[i]'i.2 = resumedSlot acc.1 i (acc.1.htm.slots[i]'i.2) := by
  unfold resumeSlot resumedSlot
  cases hi : (acc.1.htm.slots[i]'i.2).hold with
  | none => rfl
  | some h =>
    dsimp only
    split
    · simp only [State.withHtm_htm, Htm.putHold_slot, ↓reduceIte]
    · rfl

/-- A resume sweep at each slot: its turn comes with the lower slots as the sweep leaves them and the others as it
found them. -/
theorem resumeSweep_turn (s : State) (i : Fin 48) :
    ∃ x : Htm, (∀ j : Fin 48, j < i → x.slots[j]'j.2 = s.resumeSweep.1.htm.slots[j])
      ∧ (∀ j : Fin 48, i ≤ j → x.slots[j]'j.2 = s.htm.slots[j]'j.2)
      ∧ s.resumeSweep.1.htm.slots[i] = resumedSlot (s.withHtm x) i (s.htm.slots[i]'i.2) := by
  obtain ⟨all, hall⟩ := exists_allSlots
  rw [State.resumeSweep_eq, ← hall]
  obtain ⟨pre, hlow, hhigh, hown⟩ := foldl_slots_turn
    (slotOf := fun (a : State × List DomainSet) (j : Fin 48) => a.1.htm.slots[j]'j.2)
    (fun a i j hj => resumeSlot_other a hj) (s, []) i hall
  dsimp only at hlow hhigh hown
  have hframe := foldl_resumeSlot_frame pre (s, [])
  refine ⟨(pre.foldl resumeSlot (s, [])).1.htm, hlow, hhigh, hown.trans ?_⟩
  rw [resumeSlot_slot, ← hframe, hhigh i (le_refl i)]

/-- A resume sweep changes nothing but the table. -/
theorem resumeSweep_frame (s : State) : s.resumeSweep.1 = s.withHtm s.resumeSweep.1.htm := by
  obtain ⟨all, hall⟩ := exists_allSlots
  rw [State.resumeSweep_eq, ← hall]
  exact foldl_resumeSlot_frame all (s, [])

theorem filterMap_singleton {α β : Type} (f : α → Option β) (a : α) : [a].filterMap f = (f a).toList := by
  cases h : f a <;> simp [h]

/-- The mask that one slot adds to the report of a resume sweep. -/
def resumedMask (before after : Slot) : Option DomainSet :=
  match before.hold, after.hold with
  | some h, some g => if h.state = .suspended ∧ g.state = .active then some h.mask else none
  | _, _ => none

theorem resumedMasks_eq (before after : Htm) :
    resumedMasks before after = allSlots.filterMap fun i => resumedMask (before.slots[i]'i.2) (after.slots[i]'i.2) := rfl

theorem resumedMask_self (sl : Slot) : resumedMask sl sl = none := by
  unfold resumedMask
  cases sl.hold with
  | none => rfl
  | some h => by_cases hs : h.state = .suspended <;> simp [hs]

/-- One turn of a resume sweep gathers the mask of a hold that it resumes. -/
theorem resumeSlot_masks (acc : State × List DomainSet) (i : Fin 48) :
    (resumeSlot acc i).2 =
      acc.2 ++ (resumedMask (acc.1.htm.slots[i]'i.2) ((resumeSlot acc i).1.htm.slots[i]'i.2)).toList := by
  rw [resumeSlot_slot]
  unfold resumeSlot resumedSlot
  cases hi : (acc.1.htm.slots[i]'i.2).hold with
  | none => simp only [resumedMask_self, Option.toList_none, List.append_nil]
  | some h =>
    dsimp only
    split
    · rename_i hr
      have hs : h.state = .suspended := by
        rw [Bool.and_eq_true, Bool.and_eq_true, decide_eq_true_eq] at hr
        exact hr.1.1
      simp only [resumedMask, hi, hs, Hold.activated, and_self, ↓reduceIte, Option.toList_some]
    · simp only [resumedMask_self, Option.toList_none, List.append_nil]

/-- The masks that a resume sweep gathers are those of the holds it resumed, in slot order (R44). -/
theorem resumeSweep_masks (s : State) : s.resumeSweep.2 = resumedMasks s.htm s.resumeSweep.1.htm := by
  rw [resumedMasks_eq, State.resumeSweep_eq]
  refine (foldl_allSlots (f := resumeSlot) (a := (s, []))
    (P := fun seen acc => (∀ j : Fin 48, j ∉ seen → acc.1.htm.slots[j]'j.2 = s.htm.slots[j]'j.2)
      ∧ acc.2 = seen.filterMap fun i => resumedMask (s.htm.slots[i]'i.2) (acc.1.htm.slots[i]'i.2)) ⟨fun _ _ => rfl, rfl⟩ ?_).2
  rintro seen acc i hseen ⟨hrest, hmasks⟩
  have hi : i ∉ seen := fun hm => lt_irrefl i ((hseen i).mp hm)
  refine ⟨fun j hj => ?_, ?_⟩
  · rw [List.mem_append, not_or, List.mem_singleton] at hj
    rw [resumeSlot_other acc hj.2, hrest j hj.1]
  · have hkept : (seen.filterMap fun j => resumedMask (s.htm.slots[j]'j.2) ((resumeSlot acc i).1.htm.slots[j]'j.2))
        = seen.filterMap fun j => resumedMask (s.htm.slots[j]'j.2) (acc.1.htm.slots[j]'j.2) :=
      List.filterMap_congr fun j hj => by
        have hj' : j ≠ i := fun e => hi (e ▸ hj)
        rw [resumeSlot_other acc hj']
    rw [List.filterMap_append, hkept, ← hmasks, resumeSlot_masks, hrest i hi, filterMap_singleton]

/-! #### The hold second -/

/-- What the expiry part of a hold second makes of a slot (R110, R111). -/
def expiredSlot (sl : Slot) : Slot :=
  match sl.hold with
  | some h =>
    if isExpired h then
      match h.interval with
      | none => { gen := sl.gen + 1, hold := none }
      | some m => { sl with hold := some (h.waiting (gridCountdown m (h.sinceStart.getD 0))) }
    else sl
  | none => sl

theorem expireSlot_slot (t : Htm) (i : Fin 48) : (t.expireSlot i).slots[i]'i.2 = expiredSlot (t.slots[i]'i.2) := by
  unfold Htm.expireSlot expiredSlot
  cases hi : (t.slots[i]'i.2).hold with
  | none => rfl
  | some h =>
    dsimp only
    split
    · unfold Htm.expire
      cases h.interval with
      | none => simp only [Htm.retire_slot, ↓reduceIte]
      | some m => simp only [Htm.putHold_slot, ↓reduceIte]
    · rfl

/-- The table once every expiry of a hold second has been made. -/
def Htm.afterExpiries (t : Htm) : Htm := allSlots.foldl Htm.expireSlot t

theorem Htm.afterExpiries_eq (t : Htm) : t.afterExpiries = allSlots.foldl Htm.expireSlot t := rfl

theorem Htm.afterExpiries_slots (t : Htm) (i : Fin 48) : t.afterExpiries.slots[i] = expiredSlot (t.slots[i]'i.2) := by
  obtain ⟨all, hall⟩ := exists_allSlots
  rw [Htm.afterExpiries_eq, ← hall]
  obtain ⟨pre, -, hhigh, hown⟩ := foldl_slots_turn (slotOf := fun (t : Htm) (j : Fin 48) => t.slots[j]'j.2)
    (fun t i j hj => t.expireSlot_other hj) t i hall
  refine hown.trans ?_
  rw [expireSlot_slot, hhigh i (le_refl i)]

/-- What one turn of the starts makes of a slot (R112, R113). -/
def startedSlot (s : State) (i : Fin 48) (sl : Slot) : Slot :=
  match sl.hold with
  | some h => if isDue h then { sl with hold := some (s.startHold i h) } else sl
  | none => sl

theorem startSlot_slot (acc : Starts) (i : Fin 48) :
    (startSlot acc i).1.htm.slots[i]'i.2 = startedSlot acc.1 i (acc.1.htm.slots[i]'i.2) := by
  unfold startSlot startedSlot
  cases hi : (acc.1.htm.slots[i]'i.2).hold with
  | none => rfl
  | some h =>
    dsimp only
    split
    · simp only [Starts.add, State.withHtm_htm, Htm.putHold_slot, ↓reduceIte]
    · rfl

theorem foldl_startSlot_frame (is : List (Fin 48)) (acc : Starts) :
    (is.foldl startSlot acc).1 = acc.1.withHtm (is.foldl startSlot acc).1.htm := by
  induction is generalizing acc with
  | nil => rfl
  | cons i is ih =>
    rw [List.foldl_cons, ih, startSlot_frame]
    rfl

/-- What the starts of a hold second lead to. -/
def State.afterStarts (s : State) : Starts := allSlots.foldl startSlot (s, [], false)

theorem State.afterStarts_eq (s : State) : s.afterStarts = allSlots.foldl startSlot (s, [], false) := rfl

theorem State.afterStarts_frame (s : State) : s.afterStarts.1 = s.withHtm s.afterStarts.1.htm := by
  obtain ⟨all, hall⟩ := exists_allSlots
  rw [State.afterStarts_eq, ← hall]
  exact foldl_startSlot_frame all (s, [], false)

/-- The starts at each slot: its turn comes with the lower starts taken, and the other slots as the starts found
them. -/
theorem State.afterStarts_turn (s : State) (i : Fin 48) :
    ∃ x : Htm, (∀ j : Fin 48, j < i → x.slots[j]'j.2 = s.afterStarts.1.htm.slots[j])
      ∧ (∀ j : Fin 48, i ≤ j → x.slots[j]'j.2 = s.htm.slots[j]'j.2)
      ∧ s.afterStarts.1.htm.slots[i] = startedSlot (s.withHtm x) i (s.htm.slots[i]'i.2) := by
  obtain ⟨all, hall⟩ := exists_allSlots
  rw [State.afterStarts_eq, ← hall]
  obtain ⟨pre, hlow, hhigh, hown⟩ := foldl_slots_turn
    (slotOf := fun (a : Starts) (j : Fin 48) => a.1.htm.slots[j]'j.2)
    (fun a i j hj => startSlot_other a hj) (s, [], false) i hall
  dsimp only at hlow hhigh hown
  have hframe := foldl_startSlot_frame pre (s, [], false)
  refine ⟨(pre.foldl startSlot (s, [], false)).1.htm, hlow, hhigh, hown.trans ?_⟩
  rw [startSlot_slot, ← hframe, hhigh i (le_refl i)]

/-- The hold second as the expiries and the starts of the counted table. -/
theorem execHoldSecond_eq (s : State) :
    execHoldSecond s = arrive .holdSecond s fun s =>
      let r := (s.withHtm (s.htm.mapHolds countHold).afterExpiries).afterStarts
      s.settleTable r.1.htm r.2.1 (secondFlags (s.htm.mapHolds countHold).someExpired r.2.2) := by
  simp only [execHoldSecond, Htm.afterExpiries_eq, State.afterStarts_eq]

end Sys2Proof.Machine

/-! ### Frames: what a handling leaves as it was (00 "Block overview") -/

namespace Sys2Proof.Machine

/-! #### Reports of hold-demand and applications among what is in flight -/

/-- The arrivals whose handing over the laws of the hold table watch: the reports of hold-demand and the applications. -/
def watched : Instr → Bool
  | .holdDemandReport .. | .application .. => true
  | _ => false

/-- What is watched among the arrivals in flight. -/
def State.inFlight (s : State) : List Instr := s.handed.filter watched

theorem State.inFlight_handAll {cs : List Instr} (hcs : cs.filter watched = []) (s : State) :
    (s.handAll cs).inFlight = s.inFlight :=
  (List.filter_append ..).trans ((congrArg (s.inFlight ++ ·) hcs).trans (List.append_nil _))

theorem filter_watched_nil {cs : List Instr} (hcs : ∀ x ∈ cs, watched x = false) : cs.filter watched = [] :=
  List.filter_eq_nil_iff.mpr fun x hx => Bool.eq_false_iff.mp (hcs x hx)

theorem State.inFlight_hand {x : Instr} (hx : watched x = false) (s : State) : (s.hand x).inFlight = s.inFlight :=
  State.inFlight_handAll (filter_watched_nil fun _ hy => List.mem_singleton.mp hy ▸ hx) s

theorem State.inFlight_raise (s : State) (fs : List Flag) : (s.raise fs).inFlight = s.inFlight := by
  rw [State.raise_eq]
  exact State.inFlight_handAll (by split <;> rfl) s

/-! #### The frame of a handling -/

/-- Outside the listed blocks and what is in flight, the second state is the first. -/
structure SameOutside (bs : List Block) (s t : State) : Prop where
  blocks : ∀ b, b ∉ bs → b.sameIn s t
  held : t.held = s.held
  inputs : t.inputs = s.inputs
  endedByClear : t.endedByClear = s.endedByClear
  readings : t.readings = s.readings
  choices : t.choices = s.choices
  pending : t.pending = s.pending

/-- The frame of a handling: outside the listed blocks and what it hands over the state is as before; and where the hold
table is not listed, no report of hold-demand and no application is handed over. -/
structure OnlyBlocks (bs : List Block) (s t : State) : Prop extends SameOutside bs s t where
  quiet : Block.htm ∉ bs → t.inFlight = s.inFlight

@[simp] theorem Block.sameIn_rfl (b : Block) (s : State) : b.sameIn s s := by cases b <;> rfl

theorem Block.sameIn_trans {b : Block} {s t u : State} (h : b.sameIn s t) (h' : b.sameIn t u) : b.sameIn s u := by
  cases b <;> exact Eq.trans h' h

theorem SameOutside.refl (bs : List Block) (s : State) : SameOutside bs s s :=
  ⟨fun b _ => b.sameIn_rfl s, rfl, rfl, rfl, rfl, rfl, rfl⟩

theorem SameOutside.trans {bs : List Block} {s t u : State} (h : SameOutside bs s t) (h' : SameOutside bs t u) :
    SameOutside bs s u :=
  ⟨fun b hb => Block.sameIn_trans (h.blocks b hb) (h'.blocks b hb), h'.held.trans h.held, h'.inputs.trans h.inputs,
    h'.endedByClear.trans h.endedByClear, h'.readings.trans h.readings, h'.choices.trans h.choices,
    h'.pending.trans h.pending⟩

theorem SameOutside.mono {bs cs : List Block} {s t : State} (h : SameOutside bs s t) (hsub : bs ⊆ cs) :
    SameOutside cs s t :=
  ⟨fun b hb => h.blocks b fun hm => hb (hsub hm), h.held, h.inputs, h.endedByClear, h.readings, h.choices, h.pending⟩

theorem OnlyBlocks.refl (bs : List Block) (s : State) : OnlyBlocks bs s s := ⟨.refl _ _, fun _ => rfl⟩

theorem OnlyBlocks.trans {bs : List Block} {s t u : State} (h : OnlyBlocks bs s t) (h' : OnlyBlocks bs t u) :
    OnlyBlocks bs s u :=
  ⟨h.toSameOutside.trans h'.toSameOutside, fun hb => (h'.quiet hb).trans (h.quiet hb)⟩

theorem OnlyBlocks.mono {bs cs : List Block} {s t : State} (h : OnlyBlocks bs s t) (hsub : bs ⊆ cs) :
    OnlyBlocks cs s t :=
  ⟨h.toSameOutside.mono hsub, fun hb => h.quiet fun hm => hb (hsub hm)⟩

variable {bs : List Block} {s t u : State}

/-! #### The shared operations -/

theorem sameOutside_handed (bs : List Block) (s : State) (cs : List Instr) : SameOutside bs s { s with handed := cs } :=
  ⟨fun b _ => by cases b <;> rfl, rfl, rfl, rfl, rfl, rfl, rfl⟩

theorem SameOutside.of_take {c : Instr} (h : SameOutside bs (s.take c) t) : SameOutside bs s t :=
  (sameOutside_handed bs s _).trans h

theorem OnlyBlocks.handAll (h : OnlyBlocks bs s t) (cs : List Instr) (hcs : cs.filter watched = []) :
    OnlyBlocks bs s (t.handAll cs) :=
  h.trans ⟨sameOutside_handed _ _ _, fun _ => State.inFlight_handAll hcs t⟩

theorem OnlyBlocks.hand (h : OnlyBlocks bs s t) (c : Instr) (hc : watched c = false) :
    OnlyBlocks bs s (t.hand c) :=
  h.trans ⟨sameOutside_handed _ _ _, fun _ => State.inFlight_hand hc t⟩

theorem OnlyBlocks.raise (h : OnlyBlocks bs s t) (fs : List Flag) : OnlyBlocks bs s (t.raise fs) :=
  h.trans ⟨by rw [State.raise_eq]; exact sameOutside_handed _ _ _, fun _ => State.inFlight_raise t fs⟩

/-- A state that differs in one block alone. -/
theorem OnlyBlocks.of_block {b : Block} (hb : ∀ a, a ≠ b → a.sameIn s t) (hhanded : t.handed = s.handed)
    (h : t.held = s.held ∧ t.inputs = s.inputs ∧ t.endedByClear = s.endedByClear ∧ t.readings = s.readings
      ∧ t.choices = s.choices ∧ t.pending = s.pending) : OnlyBlocks [b] s t :=
  ⟨⟨fun a ha => hb a (List.ne_of_not_mem_cons ha), h.1, h.2.1, h.2.2.1, h.2.2.2.1, h.2.2.2.2.1, h.2.2.2.2.2⟩,
    fun _ => congrArg (List.filter watched) hhanded⟩

theorem onlyBlocks_withHtm (s : State) (t : Htm) : OnlyBlocks [.htm] s (s.withHtm t) :=
  .of_block (fun a ha => by cases a <;> first | rfl | exact absurd rfl ha) rfl ⟨rfl, rfl, rfl, rfl, rfl, rfl⟩

theorem onlyBlocks_settleTable (s : State) (t : Htm) (e : List DomainSet) (fs : List Flag) :
    OnlyBlocks [.htm] s (s.settleTable t e fs) := by
  unfold State.settleTable
  rw [State.reportDemand_eq]
  exact ((onlyBlocks_withHtm s t).trans
    ⟨sameOutside_handed _ _ _, fun h => absurd (List.mem_singleton_self _) h⟩).raise fs

theorem onlyBlocks_dsc (s : State) (d : Dsc) : OnlyBlocks [.dsc] s { s with dsc := d } :=
  .of_block (fun a ha => by cases a <;> first | rfl | exact absurd rfl ha) rfl ⟨rfl, rfl, rfl, rfl, rfl, rfl⟩

theorem onlyBlocks_settleDomains (s : State) (d : Dsc) (fs : List Flag) :
    OnlyBlocks [.dsc] s (s.settleDomains d fs) := by
  refine (((onlyBlocks_dsc s _).handAll _ ?_).raise fs).handAll _ ?_
  · unfold portCrossing
    split
    · rfl
    · split <;> rfl
  · refine filter_watched_nil fun x hx => ?_
    obtain ⟨i, -, rfl⟩ := List.mem_map.mp hx
    rfl

theorem onlyBlocks_withBnl (s : State) (b : Bnl) : OnlyBlocks [.bnl] s (s.withBnl b) :=
  .of_block (fun a ha => by cases a <;> first | rfl | exact absurd rfl ha) rfl ⟨rfl, rfl, rfl, rfl, rfl, rfl⟩

theorem onlyBlocks_withCtp (s : State) (p : Ctp) : OnlyBlocks [.ctp] s (s.withCtp p) :=
  .of_block (fun a ha => by cases a <;> first | rfl | exact absurd rfl ha) rfl ⟨rfl, rfl, rfl, rfl, rfl, rfl⟩

theorem onlyBlocks_withEvu (s : State) (e : Evu) : OnlyBlocks [.evu] s (s.withEvu e) :=
  .of_block (fun a ha => by cases a <;> first | rfl | exact absurd rfl ha) rfl ⟨rfl, rfl, rfl, rfl, rfl, rfl⟩

theorem onlyBlocks_withMdc (s : State) (m : Mdc) : OnlyBlocks [.mdc] s (s.withMdc m) :=
  .of_block (fun a ha => by cases a <;> first | rfl | exact absurd rfl ha) rfl ⟨rfl, rfl, rfl, rfl, rfl, rfl⟩

theorem onlyBlocks_withPin (s : State) (i : Fin 8) (p : Pin) : OnlyBlocks [.wsu] s (s.withPin i p) :=
  .of_block (fun a ha => by cases a <;> first | rfl | exact absurd rfl ha) rfl ⟨rfl, rfl, rfl, rfl, rfl, rfl⟩

theorem onlyBlocks_withSource (s : State) (i : Fin 16) (x : Source) : OnlyBlocks [.wsu] s (s.withSource i x) :=
  .of_block (fun a ha => by cases a <;> first | rfl | exact absurd rfl ha) rfl ⟨rfl, rfl, rfl, rfl, rfl, rfl⟩

theorem onlyBlocks_cbu (s : State) (b : Cbu) : OnlyBlocks [.cbu] s { s with cbu := b } :=
  .of_block (fun a ha => by cases a <;> first | rfl | exact absurd rfl ha) rfl ⟨rfl, rfl, rfl, rfl, rfl, rfl⟩

theorem onlyBlocks_withBudget (s : State) (b : Cbu) : OnlyBlocks [.cbu] s (s.withBudget b) := by
  unfold State.withBudget
  dsimp only
  split
  · exact onlyBlocks_cbu _ _
  · exact (onlyBlocks_cbu _ _).hand _ rfl

theorem onlyBlocks_spm (s : State) (m : Spm) : OnlyBlocks [.spm] s { s with spm := m } :=
  .of_block (fun a ha => by cases a <;> first | rfl | exact absurd rfl ha) rfl ⟨rfl, rfl, rfl, rfl, rfl, rfl⟩

theorem onlyBlocks_tmb (s : State) (c : Tmb) : OnlyBlocks [.tmb] s { s with tmb := c } :=
  .of_block (fun a ha => by cases a <;> first | rfl | exact absurd rfl ha) rfl ⟨rfl, rfl, rfl, rfl, rfl, rfl⟩

theorem onlyBlocks_tpe (s : State) (x : Tpe) : OnlyBlocks [.tpe] s { s with tpe := x } :=
  .of_block (fun a ha => by cases a <;> first | rfl | exact absurd rfl ha) rfl ⟨rfl, rfl, rfl, rfl, rfl, rfl⟩

theorem onlyBlocks_tau (s : State) (x : Tau) : OnlyBlocks [.tau] s { s with tau := x } :=
  .of_block (fun a ha => by cases a <;> first | rfl | exact absurd rfl ha) rfl ⟨rfl, rfl, rfl, rfl, rfl, rfl⟩

/-! #### The operations of single blocks -/

theorem onlyBlocks_takeRequest (s : State) (lo hi : Nat) (a : RequestArgs) :
    OnlyBlocks [.htm] s (s.takeRequest lo hi a).1 := by
  rcases s.takeRequest_cases lo hi a with ⟨st, h⟩ | ⟨i, -, h⟩ <;> simp only [h]
  · exact .refl _ _
  · exact onlyBlocks_settleTable _ _ _ _

theorem onlyBlocks_takeRenew (s : State) (node : Option Byte) (h : Handle) (code : Fin 166) :
    OnlyBlocks [.htm] s (s.takeRenew node h code).1 := by
  rcases s.takeRenew_cases node h code with ⟨st, e⟩ | ⟨i, x, -, ⟨-, e⟩ | ⟨-, e⟩⟩ <;> rw [e]
  · exact .refl _ _
  · exact onlyBlocks_withHtm _ _
  · exact onlyBlocks_withHtm _ _

theorem onlyBlocks_takeRelease (s : State) (node : Option Byte) (h : Handle) :
    OnlyBlocks [.htm] s (s.takeRelease node h).1 := by
  rcases s.takeRelease_cases node h with ⟨st, e⟩ | ⟨i, x, -, e⟩ <;> simp only [e]
  · exact .refl _ _
  · exact onlyBlocks_settleTable _ _ _ _

theorem onlyBlocks_createEvicting {h : Hold} (e : s.createEvicting h = some t) : OnlyBlocks [.htm] s t := by
  unfold State.createEvicting at e
  split at e
  · cases e
  · cases e
    exact onlyBlocks_settleTable _ _ _ _

theorem onlyBlocks_apply (s : State) (source index : Fin 16) (x : Template) :
    OnlyBlocks [.htm] s (s.apply source index x).1 := by
  unfold State.apply
  split
  · exact onlyBlocks_withHtm _ _
  · unfold State.applyNew
    split
    · exact .refl _ _
    · split
      · exact .refl _ _
      · exact onlyBlocks_createEvicting ‹_›

theorem onlyBlocks_applyFloor (s : State) (c : Fin 8) (old new : Tier) :
    OnlyBlocks [.htm] s (s.applyFloor c old new) := by
  unfold State.applyFloor
  repeat' split
  all_goals first | exact onlyBlocks_settleTable _ _ _ _ | exact .refl _ _

theorem onlyBlocks_tierReport (s : State) (r : Tau) (run : Bool) : OnlyBlocks [.tau, .htm] s (s.tierReport r run) := by
  have htau := (onlyBlocks_tau s { r with effective := r.formed }).mono (cs := [.tau, .htm]) (by simp)
  have hsweep : ∀ (x : State) t e fs, OnlyBlocks [.tau, .htm] x (x.settleTable t e fs) := fun x t e fs =>
    (onlyBlocks_settleTable x t e fs).mono (by simp)
  unfold State.tierReport
  dsimp only
  repeat' split
  all_goals first | exact htau.trans (hsweep _ _ _ _) | exact htau

/-- The operation of a service frame is none of what is watched. -/
theorem not_watched_of_operation {f : List Byte} {x : Instr} (h : judgeService f = .operation x) :
    watched x = false := by
  unfold judgeService at h
  dsimp only at h
  repeat' split at h
  all_goals cases h
  all_goals rfl

theorem onlyBlocks_engineTake (s : State) : OnlyBlocks [.bnl] s s.engineTake := by
  unfold State.engineTake
  split
  · split
    · exact onlyBlocks_withBnl _ _
    · exact (onlyBlocks_withBnl _ _).hand _ (not_watched_of_operation ‹_›)
  · exact .refl _ _

theorem onlyBlocks_considerService (s : State) (ident : BitVec 11) (remote : Bool) (bytes : List Byte) :
    OnlyBlocks [.bnl] s (s.considerService ident remote bytes) := by
  unfold State.considerService
  repeat' split
  · exact (OnlyBlocks.refl _ _).raise _
  · exact (onlyBlocks_withBnl _ _).trans (onlyBlocks_engineTake _)
  · exact .refl _ _

theorem onlyBlocks_setFlags (s : State) (flags : FlagSet) : OnlyBlocks [.evu] s (s.setFlags flags) := by
  unfold State.setFlags
  dsimp only
  split
  · exact (onlyBlocks_withEvu _ _).hand _ rfl
  · exact onlyBlocks_withEvu _ _

theorem onlyBlocks_recordOutcome (s : State) (i : Fin 16) (o : WakeOutcome) :
    OnlyBlocks [.wsu] s (s.recordOutcome i o) := (onlyBlocks_withSource _ _ _).raise _

theorem onlyBlocks_enterRun (s : State) : OnlyBlocks [.mdc] s s.enterRun :=
  ((onlyBlocks_withMdc _ _).handAll _ rfl).raise _

theorem onlyBlocks_enterParkPending (s : State) : OnlyBlocks [.mdc] s s.enterParkPending :=
  ((onlyBlocks_withMdc _ _).handAll _ rfl).raise _

theorem onlyBlocks_enterPark (s : State) : OnlyBlocks [.mdc] s s.enterPark :=
  ((onlyBlocks_withMdc _ _).handAll _ rfl).raise _

theorem onlyBlocks_ignitionChanged (s : State) (active : Bool) : OnlyBlocks [.mdc] s (s.ignitionChanged active) := by
  unfold State.ignitionChanged
  repeat' split
  all_goals first
    | exact onlyBlocks_enterRun _
    | exact onlyBlocks_enterPark _
    | exact onlyBlocks_enterParkPending _
    | exact .refl _ _

theorem onlyBlocks_abortCalibration (s : State) : OnlyBlocks [.spm] s s.abortCalibration := by
  unfold State.abortCalibration
  split
  · exact (onlyBlocks_spm _ _).raise _
  · exact .refl _ _

theorem onlyBlocks_account (s : State) : OnlyBlocks [.cbu] s s.account := by
  unfold State.account
  dsimp only
  split
  · exact onlyBlocks_withBudget _ _
  · exact (onlyBlocks_withBudget _ _).hand _ rfl

theorem onlyBlocks_takeTrip (s : State) (i : Fin 12) : OnlyBlocks [.dsc] s (s.takeTrip i) := by
  unfold State.takeTrip
  split
  · exact onlyBlocks_settleDomains _ _ _
  · exact onlyBlocks_settleDomains _ _ _
  · exact onlyBlocks_settleDomains _ _ _
  all_goals exact .refl _ _

/-! #### Arrivals, reports, commands and parts of a CLEAR -/

variable {c : Instr} {f : State → State} {g : State → State × Reply}

theorem arrive_sameOutside (h : arrive c s f = .next t) (hf : ∀ u, OnlyBlocks bs u (f u)) : SameOutside bs s t := by
  rcases arrive_eq_next h with ⟨-, rfl⟩ | ⟨-, rfl⟩
  · exact .refl _ _
  · exact (hf _).toSameOutside.of_take

theorem arriveReport_sameOutside (h : arriveReport c s f = .next t) (hf : ∀ u, OnlyBlocks bs u (f u)) :
    SameOutside bs s t := by
  rcases arriveReport_eq_next h with ⟨-, rfl⟩ | ⟨-, rfl⟩ | ⟨-, -, ⟨-, rfl⟩ | ⟨-, rfl⟩⟩
  · exact .refl _ _
  · exact (hf _).toSameOutside.of_take
  · exact .refl _ _
  · exact sameOutside_handed _ _ _

/-- A state whose port, with the level on CSN, is another. -/
def State.withPort (s : State) (p : Ctp) (csn : Bool) : State := { s with ctp := p, inputs := { s.inputs with csn := csn } }

theorem State.withPort_self (s : State) : s.withPort s.ctp s.inputs.csn = s := rfl

theorem portTake_eq_withPort {n : Nat} (h : portTake c s = some (n, t)) : ∃ p csn, t = s.withPort p csn :=
  ⟨_, _, portTake_frame h⟩

theorem portLeft_eq_withPort (c : Instr) (s : State) : ∃ p csn, portLeft c s = s.withPort p csn := by
  rcases portLeft_cases c s with ⟨-, h⟩ | ⟨-, -, h⟩ | ⟨-, -, h⟩ <;> rw [h]
  · exact ⟨_, _, s.withPort_self.symm⟩
  · exact ⟨_, _, rfl⟩
  · exact ⟨_, _, rfl⟩

theorem partTake_eq_withPort (h : partTake c s = some t) : ∃ p, t = s.withPort p s.inputs.csn := by
  rcases partTake_cases h with ⟨n, -, rfl⟩ | ⟨-, rfl⟩
  · exact ⟨_, rfl⟩
  · exact ⟨_, (State.withPort_self _).symm⟩

/-- A command moves the port and what its block does. -/
theorem portCommand_onlyBlocks (h : portCommand c s g = .next t) (hg : ∀ u, OnlyBlocks bs u (g u).1) :
    ∃ p csn, OnlyBlocks bs (s.withPort p csn) t := by
  rcases portCommand_eq_next h with ⟨-, rfl⟩ | ⟨-, -, rfl⟩ | ⟨n, s1, htake, rfl⟩
  · exact ⟨s.ctp, true, .refl _ _⟩
  · obtain ⟨p, csn, e⟩ := portLeft_eq_withPort c s
    exact ⟨p, csn, e ▸ .refl _ _⟩
  · obtain ⟨p, csn, rfl⟩ := portTake_eq_withPort htake.2
    exact ⟨p, csn, (hg _).hand _ rfl⟩

/-- A part of a CLEAR moves the port, without an edge of CSN, and what its block does. -/
theorem portPart_onlyBlocks (h : portPart c s f = .next t) (hf : ∀ u, OnlyBlocks bs u (f u)) :
    ∃ p, OnlyBlocks bs (s.withPort p s.inputs.csn) t := by
  rcases portPart_eq_next h with ⟨-, rfl⟩ | ⟨-, -, rfl⟩ | ⟨s1, htake, rfl⟩
  · exact ⟨_, .refl _ _⟩
  · exact ⟨_, .refl _ _⟩
  · obtain ⟨p, rfl⟩ := partTake_eq_withPort htake.2
    exact ⟨p, hf _⟩

end Sys2Proof.Machine

/-! ### What each command leaves as it was (00 "Block overview") -/

namespace Sys2Proof.Machine

variable {c : Instr} {s t : State}

/-- What a command leaves as it was: the blocks that it does not own, the queue, the readings; and the rest by what the
command is. -/
structure KeptBy (c : Instr) (s t : State) : Prop where
  blocks : ∀ b, b ∉ c.moves → b.sameIn s t
  pending : t.pending = s.pending
  readings : t.readings = s.readings
  ended : c ≠ .powerOnReset → c ≠ .supplyBelowResetThreshold → c ≠ .flagSetting 0x8000 → c ≠ .clearFlags →
    c ≠ .calibrationAbort → t.endedByClear = s.endedByClear
  choices : c ≠ .calibrationAbort → t.choices = s.choices
  levels : c.tracksInput = false → t.inputs = { s.inputs with csn := t.inputs.csn }
  csn : c.movesCsn = false → t.inputs.csn = s.inputs.csn
  held : c ≠ .powerOnReset → c ≠ .supplyBelowResetThreshold → t.held = s.held

theorem KeptBy.of_sameOutside (h : SameOutside c.moves s t) : KeptBy c s t :=
  ⟨h.blocks, h.pending, h.readings, fun _ _ _ _ _ => h.endedByClear, fun _ => h.choices, fun _ => by rw [h.inputs],
    fun _ => by rw [h.inputs], fun _ _ => h.held⟩

/-- A command that ends a frame, and with it moves the port and CSN. -/
theorem KeptBy.of_frame (hcsn : c.movesCsn = true) (hctp : .ctp ∈ c.moves)
    (h : ∃ p csn, SameOutside c.moves (s.withPort p csn) t) : KeptBy c s t := by
  obtain ⟨p, csn, h⟩ := h
  refine ⟨fun b hb => ?_, h.pending, h.readings, fun _ _ _ _ _ => h.endedByClear, fun _ => h.choices,
    fun _ => by rw [h.inputs]; rfl, fun hc => Bool.noConfusion (hcsn.symm.trans hc), fun _ _ => h.held⟩
  have hne : b ≠ .ctp := fun e => hb (e ▸ hctp)
  refine Block.sameIn_trans (t := s.withPort p csn) ?_ (h.blocks b hb)
  cases b <;> first | rfl | exact absurd rfl hne

/-- A command of the Control Port keeps what its block does not own. -/
theorem portCommand_kept {f : State → State × Reply} {bs : List Block} (hcsn : c.movesCsn = true)
    (hmoves : c.moves = .ctp :: bs) (hf : ∀ u, OnlyBlocks bs u (f u).1) (h : portCommand c s f = .next t) :
    KeptBy c s t := by
  obtain ⟨p, csn, h⟩ := portCommand_onlyBlocks h hf
  have hsub : bs ⊆ c.moves := hmoves ▸ List.subset_cons_self _ _
  exact .of_frame hcsn (hmoves ▸ List.mem_cons_self) ⟨p, csn, h.toSameOutside.mono hsub⟩

/-- A part of a CLEAR keeps what its block does not own, and CSN. -/
theorem portPart_sameOutside {f : State → State} {bs : List Block} (hf : ∀ u, OnlyBlocks bs u (f u))
    (h : portPart c s f = .next t) : SameOutside (.ctp :: bs) s t := by
  obtain ⟨p, h⟩ := portPart_onlyBlocks h hf
  exact ((onlyBlocks_withCtp s p).toSameOutside.mono (List.cons_subset_cons _ (List.nil_subset _))).trans
    (h.toSameOutside.mono (List.subset_cons_self _ _))

/-! #### The arrivals that report a level -/

/-- The row of an arrival that reports a level: the level is kept, while the part is held in reset too, and the rest is
an arrival. -/
def LevelRow (c : Instr) (keep : Inputs → Inputs) : Prop :=
  ∃ f : State → State,
    (∀ s, exec c s = if s.held then .next { s with inputs := keep s.inputs } else arrive c s f)
      ∧ (∀ x, (keep x).csn = x.csn)
      ∧ ∀ u, OnlyBlocks c.moves { u with inputs := keep u.inputs } (f u)

theorem levelRow_pinLevelChange (pin : Fin 8) (high : Bool) :
    LevelRow (.pinLevelChange pin high) fun x => { x with wake := wakeLevelsAfter x.wake pin high } := by
  refine ⟨_, fun s => (rfl : _ = execPinLevelChange pin high s), fun _ => rfl, fun u => ?_⟩
  dsimp only
  split
  · exact .refl _ _
  · split
    · exact (onlyBlocks_withPin _ _ _).hand _ rfl
    · exact onlyBlocks_withPin _ _ _

theorem levelRow_faultReport (i : Fin 12) (active : Bool) :
    LevelRow (.faultReport i active) fun x => { x with trips := tripsAfter x.trips i active } := by
  refine ⟨_, fun s => (rfl : _ = execFaultReport i active s), fun _ => rfl, fun u => ?_⟩
  dsimp only
  split
  · exact onlyBlocks_takeTrip _ _
  · exact .refl _ _

theorem levelRow_ignChange (high : Bool) : LevelRow (.ignChange high) fun x => { x with ign := high } := by
  refine ⟨_, fun s => (rfl : _ = execIgnChange high s), fun _ => rfl, fun u => ?_⟩
  dsimp only
  split
  · rename_i e
    rw [e]
    exact .refl _ _
  · exact onlyBlocks_withMdc _ _

theorem LevelRow.inputs {keep : Inputs → Inputs} (row : LevelRow c keep) (h : exec c s = .next t) :
    t.inputs = keep s.inputs := by
  obtain ⟨f, e, -, hf⟩ := row
  rw [e] at h
  split at h
  · cases h
    rfl
  · rcases arrive_eq_next h with ⟨hheld, -⟩ | ⟨-, rfl⟩
    · exact absurd hheld ‹_›
    · exact (hf _).inputs

theorem LevelRow.kept {keep : Inputs → Inputs} (row : LevelRow c keep) (htrack : c.tracksInput = true)
    (h : exec c s = .next t) : KeptBy c s t := by
  have hin := row.inputs h
  obtain ⟨f, e, hcsn, hf⟩ := row
  have hframe : ∀ cs, SameOutside c.moves { s with inputs := keep s.inputs, handed := cs } t → KeptBy c s t :=
    fun cs hk => ⟨fun b hb => Block.sameIn_trans (by cases b <;> rfl) (hk.blocks b hb), hk.pending, hk.readings,
      fun _ _ _ _ _ => hk.endedByClear, fun _ => hk.choices, fun hc => Bool.noConfusion (htrack.symm.trans hc),
      fun _ => by rw [hin, hcsn], fun _ _ => hk.held⟩
  rw [e] at h
  split at h
  · cases h
    exact hframe s.handed (.refl _ _)
  · rcases arrive_eq_next h with ⟨hheld, -⟩ | ⟨-, rfl⟩
    · exact absurd hheld ‹_›
    · exact hframe (s.take c).handed (hf (s.take c)).toSameOutside

/-! #### The arrivals at the wires of the port -/

/-- The row of an arrival at the CTP's wires: the level on CSN is kept, while the part is held in reset too, and the rest
is an arrival that moves the port and CSN. -/
def WireRow (c : Instr) (high : Bool) : Prop :=
  ∃ f : State → State, (∀ s, exec c s = if s.held then .next (s.setCsn high) else arrive c s f)
    ∧ ∀ u : State, ∃ p csn, f u = u.withPort p csn

theorem State.setCsn_eq_withPort (s : State) (high : Bool) : s.setCsn high = s.withPort s.ctp high := rfl

theorem wireRow_frameBegin : WireRow .frameBegin false := by
  refine ⟨_, fun s => (rfl : _ = execFrameBegin s), fun u => ?_⟩
  split <;> exact ⟨_, _, rfl⟩

theorem wireRow_frameRefused (bytes : List Byte) : WireRow (.frameRefused bytes) true := by
  refine ⟨_, fun s => (rfl : _ = execFrameRefused bytes s), fun u => ?_⟩
  repeat' split
  all_goals exact ⟨_, _, rfl⟩

theorem wireRow_nop : WireRow .nop true := by
  refine ⟨_, fun s => (rfl : _ = execNop s), fun u => ?_⟩
  split <;> exact ⟨_, _, rfl⟩

theorem WireRow.kept {high : Bool} (row : WireRow c high) (hcsn : c.movesCsn = true) (hctp : .ctp ∈ c.moves)
    (h : exec c s = .next t) : KeptBy c s t := by
  obtain ⟨f, e, hf⟩ := row
  rw [e] at h
  apply KeptBy.of_frame hcsn hctp
  split at h
  · cases h
    exact ⟨_, _, .refl _ _⟩
  · rcases arrive_eq_next h with ⟨hheld, -⟩ | ⟨-, rfl⟩
    · exact absurd hheld ‹_›
    · obtain ⟨p, csn, e⟩ := hf (s.take c)
      rw [e]
      exact ⟨p, csn, sameOutside_handed _ _ _⟩

/-! #### Resets, and the commands that move the marks of the CAL_ENDED in flight -/

theorem KeptBy.of_reset {u : State} (hall : ∀ b, b ∈ c.moves) (hc : c = .powerOnReset ∨ c = .supplyBelowResetThreshold)
    (h : u.inputs = s.inputs ∧ u.pending = s.pending ∧ u.readings = s.readings ∧ u.choices = s.choices) :
    KeptBy c s u := by
  obtain ⟨hi, hp, hr, hch⟩ := h
  exact ⟨fun b hb => absurd (hall b) hb, hp, hr, fun h1 h2 => (hc.elim h1 h2).elim, fun _ => hch, fun _ => by rw [hi],
    fun _ => by rw [hi], fun h1 h2 => (hc.elim h1 h2).elim⟩

theorem unmarkEnded_frame (s : State) (flags : FlagSet) :
    ∃ marks, (flags ≠ 0x8000 → marks = s.endedByClear)
      ∧ s.unmarkEnded flags = { s with endedByClear := marks } :=
  ⟨_, fun h => if_neg h, s.unmarkEnded_eq flags⟩

theorem execFlagSetting_kept {flags : FlagSet} (h : execFlagSetting flags s = .next t) :
    KeptBy (.flagSetting flags) s t := by
  rcases arrive_eq_next h with ⟨-, rfl⟩ | ⟨-, rfl⟩
  · exact .of_sameOutside (.refl _ _)
  · obtain ⟨marks, hmarks, e⟩ := unmarkEnded_frame (s.take (.flagSetting flags)) flags
    rw [e]
    have hset := onlyBlocks_setFlags { s.take (.flagSetting flags) with endedByClear := marks } flags
    exact ⟨fun b hb => Block.sameIn_trans (by cases b <;> rfl) (hset.blocks b hb), hset.pending, hset.readings,
      fun _ _ hne _ _ => hset.endedByClear.trans (hmarks fun e => hne (by rw [e])), fun _ => hset.choices,
      fun _ => by rw [hset.inputs]; rfl, fun _ => by rw [hset.inputs]; rfl, fun _ _ => hset.held⟩

/-- The clearing of the flags moves the EVU, what is handed over and the marks of the CAL_ENDED in flight. -/
theorem clearFlags_takeEnded_sameOutside (s : State) (serial : Option Nat) :
    ∃ marks, SameOutside [.evu] { s with endedByClear := marks } (s.takeEnded serial).clearFlags := by
  refine ⟨(s.takeEnded serial).endedByClear, SameOutside.trans ?_ (onlyBlocks_withEvu _ _).toSameOutside⟩
  rw [State.takeEnded_eq]
  split
  · exact ⟨fun b hb => by cases b <;> first | rfl | exact absurd (List.mem_singleton_self _) hb, rfl, rfl, rfl, rfl, rfl,
      rfl⟩
  · exact .refl _ _

/-- Without an edge of CSN, the port and one block move, the choices and the marks of the CAL_ENDED in flight. -/
theorem KeptBy.of_marks {b : Block} (hmoves : c.moves = [.ctp, b]) (hc : c = .clearFlags ∨ c = .calibrationAbort)
    {p : Ctp} {n : Nat} (hn : c = .clearFlags → n = s.choices)
    (h : ∃ marks, SameOutside [b] { s with ctp := p, choices := n, endedByClear := marks } t) : KeptBy c s t := by
  obtain ⟨marks, h⟩ := h
  refine ⟨fun a ha => ?_, h.pending, h.readings, fun _ _ _ h1 h2 => (hc.elim h1 h2).elim,
    fun h2 => h.choices.trans (hn (hc.resolve_right h2)), fun _ => by rw [h.inputs], fun _ => by rw [h.inputs],
    fun _ _ => h.held⟩
  rw [hmoves] at ha
  have ha' : a ≠ .ctp ∧ a ∉ [b] := not_or.mp fun h => ha (List.mem_cons.mpr h)
  exact Block.sameIn_trans (by cases a <;> first | rfl | exact absurd rfl ha'.1) (h.blocks a ha'.2)

theorem execClearFlags_kept (h : execClearFlags s = .next t) : KeptBy .clearFlags s t := by
  rcases portPart_eq_next h with ⟨-, rfl⟩ | ⟨-, -, rfl⟩ | ⟨s1, htake, rfl⟩
  · exact .of_sameOutside (.refl _ _)
  · exact .of_sameOutside (.refl _ _)
  · obtain ⟨p, rfl⟩ := partTake_eq_withPort htake.2
    exact .of_marks rfl (.inl rfl) (p := p) (n := s.choices) (fun _ => rfl)
      (clearFlags_takeEnded_sameOutside (s.withPort p s.inputs.csn) _)

/-- An abort moves the SPM, and the marks where it is that of a CLEAR. -/
theorem abortByClear_sameOutside (s : State) (serial : Option Nat) :
    ∃ marks, SameOutside [.spm] { s with endedByClear := marks } (s.abortByClear serial) := by
  refine ⟨(s.abortByClear serial).endedByClear, ?_⟩
  have h := onlyBlocks_abortCalibration s
  rw [State.abortByClear_eq]
  exact ⟨fun b hb => Block.sameIn_trans (t := s) (by cases b <;> rfl)
    (Block.sameIn_trans (h.blocks b hb) (by cases b <;> rfl)), h.held, h.inputs, rfl, h.readings, h.choices, h.pending⟩

/-- The state on which an abort is taken: a free choice is counted where two of them meet. -/
theorem abortChoice_eq (s : State) : ∃ n, (if s.abortsMeet then s.countChoice else s) = { s with choices := n } := by
  split <;> exact ⟨_, rfl⟩

theorem execCalibrationAbort_kept (h : execCalibrationAbort s = .next t) : KeptBy .calibrationAbort s t := by
  obtain ⟨n, hchoice⟩ := abortChoice_eq s
  have hmarks : ∀ p, (∃ marks, SameOutside [.spm] { s with ctp := p, choices := n, endedByClear := marks } t) →
      KeptBy .calibrationAbort s t := fun p => .of_marks rfl (.inr rfl) fun e => by cases e
  rcases execCalibrationAbort_cases s with ⟨-, e⟩ | ⟨-, s0, rfl, ⟨-, -, e⟩ | ⟨-, e⟩⟩ <;> rw [e] at h
  · cases h
    exact .of_sameOutside (.refl _ _)
  · rw [hchoice] at h
    exact hmarks s.ctp ⟨s.endedByClear, arrive_sameOutside h onlyBlocks_abortCalibration⟩
  · rw [hchoice] at h
    rcases portPart_eq_next h with ⟨-, rfl⟩ | ⟨-, -, rfl⟩ | ⟨s1, htake, rfl⟩
    · exact hmarks s.ctp ⟨s.endedByClear, .refl _ _⟩
    · exact hmarks s.ctp ⟨s.endedByClear, .refl _ _⟩
    · obtain ⟨p, rfl⟩ := partTake_eq_withPort htake.2
      exact hmarks p (abortByClear_sameOutside (State.withPort { s with choices := n } p s.inputs.csn) _)

/-! #### The frames of the single commands -/

/-- A handling that does what it does under a condition, and nothing otherwise. -/
theorem onlyBlocks_ite {bs : List Block} {p : Prop} [Decidable p] {x y : State} (hx : p → OnlyBlocks bs s x)
    (hy : ¬ p → OnlyBlocks bs s y) : OnlyBlocks bs s (if p then x else y) := by
  split
  · exact hx ‹_›
  · exact hy ‹_›

end Sys2Proof.Machine

/-! ### The rows of the Control Port: a command taken at the port, and the handling of its block -/

namespace Sys2Proof.Machine

variable {c : Instr} {s t : State}

/-- The row of a Control Port command is its taking at the port with this handling, which moves the blocks that the
command owns besides the CTP. -/
structure PortRow (c : Instr) (g : State → State × Reply) : Prop where
  exec_eq : ∀ s, exec c s = portCommand c s g
  moves : c.moves = .ctp :: c.moves.tail
  ctp : Block.ctp ∉ c.moves.tail
  frame : ∀ u, OnlyBlocks c.moves.tail u (g u).1

/-- The command has a row of the Control Port. -/
def HasPortRow (c : Instr) : Prop := ∃ g, PortRow c g

/-- The CTP comes first among the blocks that the command moves, and comes once. -/
def headsCtp (c : Instr) : Bool := decide (c.moves = .ctp :: c.moves.tail ∧ Block.ctp ∉ c.moves.tail)

theorem HasPortRow.intro {g : State → State × Reply} (e : State → Result) (hexec : ∀ s, exec c s = e s)
    (he : ∀ s, e s = portCommand c s g) (hc : headsCtp c = true) (frame : ∀ u, OnlyBlocks c.moves.tail u (g u).1) :
    HasPortRow c :=
  ⟨g, fun s => (hexec s).trans (he s), (of_decide_eq_true hc).1, (of_decide_eq_true hc).2, frame⟩

/-- A status command only reads. -/
theorem HasPortRow.reads {r : State → Reply} (e : State → Result) (hexec : ∀ s, exec c s = e s)
    (he : ∀ s, e s = portCommand c s fun u => (u, r u)) (hc : headsCtp c = true) : HasPortRow c :=
  .intro e hexec he hc fun u => .refl _ u

theorem portRow_purge (owner : Byte) : HasPortRow (.purge owner) := by
  refine .intro (execPurge owner) (fun _ => rfl) (fun _ => rfl) rfl fun u => ?_
  dsimp only
  split
  · dsimp only
    exact onlyBlocks_settleTable _ _ _ _
  · exact .refl _ _

theorem portRow_domainConfig (domain enable runEnable : Byte) (draw : BitVec 16) (settle runDown : Byte) :
    HasPortRow (.domainConfig domain enable runEnable draw settle runDown) := by
  refine .intro (execDomainConfig domain enable runEnable draw settle runDown) (fun _ => rfl) (fun _ => rfl) rfl
    fun u => ?_
  repeat' split
  · exact .refl _ _
  · exact onlyBlocks_settleDomains _ _ _
  · exact .refl _ _

theorem portRow_clearFault (domain : Byte) : HasPortRow (.clearFault domain) := by
  refine .intro (execClearFault domain) (fun _ => rfl) (fun _ => rfl) rfl fun u => ?_
  repeat' split
  all_goals first | exact onlyBlocks_settleDomains _ _ _ | exact .refl _ _

theorem portRow_master (setting : Byte) : HasPortRow (.master setting) := by
  refine .intro (execMaster setting) (fun _ => rfl) (fun _ => rfl) rfl fun u => ?_
  split
  · exact .refl _ _
  · split
    · exact .refl _ _
    · exact onlyBlocks_settleDomains _ _ _

theorem portRow_budgetConfig (allowance q : BitVec 16) (k : Byte) (tg ta tr : BitVec 16) :
    HasPortRow (.budgetConfig allowance q k tg ta tr) := by
  refine .intro (execBudgetConfig allowance q k tg ta tr) (fun _ => rfl) (fun _ => rfl) rfl fun u => ?_
  dsimp only
  split
  · exact .refl _ _
  · exact onlyBlocks_withBudget _ _

theorem portRow_credit (amount : BitVec 32) : HasPortRow (.credit amount) := by
  refine .intro (execCredit amount) (fun _ => rfl) (fun _ => rfl) rfl fun u => ?_
  dsimp only
  split
  · exact .refl _ _
  · exact onlyBlocks_withBudget _ _

theorem portRow_classConfig (cls floor reserve : Byte) : HasPortRow (.classConfig cls floor reserve) := by
  refine .intro (execClassConfig cls floor reserve) (fun _ => rfl) (fun _ => rfl) rfl fun u => ?_
  split
  · show OnlyBlocks [.tau, .htm] _ _
    exact ((onlyBlocks_tau _ _).mono (List.cons_subset_cons _ (List.nil_subset _))).trans
      ((onlyBlocks_applyFloor _ _ _ _).mono (List.subset_cons_self _ _))
  · exact .refl _ _

theorem portRow_sourceConfig (args : SourceArgs) : HasPortRow (.sourceConfig args) := by
  refine .intro (execSourceConfig args) (fun _ => rfl) (fun _ => rfl) rfl fun u => ?_
  repeat' split
  · exact .refl _ _
  · exact .refl _ _
  · exact onlyBlocks_withSource _ _ _
  · exact .refl _ _
  · exact (onlyBlocks_withSource _ _ _).trans (onlyBlocks_withPin _ _ _)

theorem portRow_filterConfig (filter enable : Byte) (ident mask : BitVec 16) (dataFlag index value valueMask : Byte) :
    HasPortRow (.filterConfig filter enable ident mask dataFlag index value valueMask) := by
  refine .intro (execFilterConfig filter enable ident mask dataFlag index value valueMask) (fun _ => rfl) (fun _ => rfl) rfl
    fun u => ?_
  split
  · exact onlyBlocks_withBnl _ _
  · exact .refl _ _

theorem portRow_serviceConfig (enable : Byte) (service answer : BitVec 16) :
    HasPortRow (.serviceConfig enable service answer) := by
  refine .intro (execServiceConfig enable service answer) (fun _ => rfl) (fun _ => rfl) rfl fun u => ?_
  repeat' split
  · exact .refl _ _
  · exact onlyBlocks_withBnl _ _
  · exact .refl _ _

theorem portRow_templateConfig (template : Byte) (mask : BitVec 16) (cls code : Byte) (cap : BitVec 32) (co : Byte) :
    HasPortRow (.templateConfig template mask cls code cap co) := by
  refine .intro (execTemplateConfig template mask cls code cap co) (fun _ => rfl) (fun _ => rfl) rfl fun u => ?_
  split
  · exact onlyBlocks_tpe _ _
  · exact .refl _ _

theorem portRow_setClock (day : Byte) (minute : BitVec 16) (second : Byte) :
    HasPortRow (.setClock day minute second) := by
  refine .intro (execSetClock day minute second) (fun _ => rfl) (fun _ => rfl) rfl fun u => ?_
  dsimp only
  split
  · exact .refl _ _
  · exact onlyBlocks_tmb _ _

theorem portRow_voltageConfig (vlow vcrit : Byte) : HasPortRow (.voltageConfig vlow vcrit) := by
  refine .intro (execVoltageConfig vlow vcrit) (fun _ => rfl) (fun _ => rfl) rfl fun u => ?_
  dsimp only
  split
  · exact onlyBlocks_spm _ _
  · exact .refl _ _

theorem portRow_currentConfig (enable : Byte) : HasPortRow (.currentConfig enable) := by
  refine .intro (execCurrentConfig enable) (fun _ => rfl) (fun _ => rfl) rfl fun u => ?_
  split
  · exact .refl _ _
  · exact onlyBlocks_spm _ _

theorem portRow_calibrate : HasPortRow .calibrate := by
  refine .intro execCalibrate (fun _ => rfl) (fun _ => rfl) rfl fun u => ?_
  dsimp only
  split
  · exact .refl _ _
  · exact onlyBlocks_spm _ _

theorem portRow_parkNow : HasPortRow .parkNow := by
  refine .intro execParkNow (fun _ => rfl) (fun _ => rfl) rfl fun u => ?_
  repeat' split
  all_goals first | exact onlyBlocks_enterPark _ | exact .refl _ _

theorem portRow_eventEnable (levels : BitVec 128) (code : Byte) : HasPortRow (.eventEnable levels code) := by
  refine .intro (execEventEnable levels code) (fun _ => rfl) (fun _ => rfl) rfl fun u => ?_
  split
  · exact .refl _ _
  · exact onlyBlocks_withEvu _ _

/-! ### The rows of all commands -/

/-- An arrival that neither reports a level nor concerns the port. -/
def plain (c : Instr) : Bool := decide (c.tracksInput = false ∧ c.movesCsn = false ∧ Block.ctp ∉ c.moves)

/-- What each command is: an arrival, a report or a command of the Control Port, with the frame of its handling; or one
of those that the laws treat by name. -/
inductive Row : Instr → Prop
  | powerOnReset : Row .powerOnReset
  | supplyBelowResetThreshold : Row .supplyBelowResetThreshold
  | frameBegin : Row .frameBegin
  | frameRefused (bytes : List Byte) : Row (.frameRefused bytes)
  | nop : Row .nop
  | blockResult (serial : Nat) (st : Status) (payload : List Byte) : Row (.blockResult serial st payload)
  | portReset : Row .portReset
  | portLive : Row .portLive
  | pinLevelChange (pin : Fin 8) (high : Bool) : Row (.pinLevelChange pin high)
  | faultReport (domain : Fin 12) (active : Bool) : Row (.faultReport domain active)
  | ignChange (high : Bool) : Row (.ignChange high)
  | flagSetting (flags : FlagSet) : Row (.flagSetting flags)
  | clearFlags : Row .clearFlags
  | clearService : Row .clearService
  | calibrationAbort : Row .calibrationAbort
  | handOver (source template : Fin 16) : Row (.handOver source template)
  | arrives {c : Instr} (f : State → State) (exec_eq : ∀ s, exec c s = arrive c s f)
      (frame : ∀ u, OnlyBlocks c.moves u (f u)) (hplain : plain c = true) : Row c
  | reports {c : Instr} (f : State → State) (exec_eq : ∀ s, exec c s = arriveReport c s f)
      (frame : ∀ u, OnlyBlocks c.moves u (f u)) (hplain : plain c = true)
      (hw : watched c = false ∨ ∃ demand entered, c = .holdDemandReport demand entered) : Row c
  | port {c : Instr} (g : State → State × Reply) (row : PortRow c g) (hcsn : c.movesCsn = true)
      (hport : c.portBlock.isSome = true) (hlevel : c.tracksInput = false) (hw : watched c = false) : Row c

/-- The command is one of the Control Port that raises no report of the hold table of its own accord. -/
def takenAtPort (c : Instr) : Bool :=
  decide (c.movesCsn = true ∧ c.portBlock.isSome = true ∧ c.tracksInput = false ∧ watched c = false)

theorem Row.of_port (h : HasPortRow c) (hc : takenAtPort c = true) : Row c :=
  let ⟨_, row⟩ := h
  let ⟨hcsn, hport, hlevel, hw⟩ := of_decide_eq_true hc
  .port _ row hcsn hport hlevel hw

theorem Row.of_arrive (x : State → Result) {f : State → State} (hexec : ∀ s, exec c s = x s)
    (hx : ∀ s, x s = arrive c s f) (hplain : plain c = true) (frame : ∀ u, OnlyBlocks c.moves u (f u)) : Row c :=
  .arrives f (fun s => (hexec s).trans (hx s)) frame hplain

theorem Row.of_report (x : State → Result) {f : State → State} (hexec : ∀ s, exec c s = x s)
    (hx : ∀ s, x s = arriveReport c s f) (hplain : plain c = true)
    (hw : watched c = false ∨ ∃ demand entered, c = .holdDemandReport demand entered)
    (frame : ∀ u, OnlyBlocks c.moves u (f u)) : Row c :=
  .reports f (fun s => (hexec s).trans (hx s)) frame hplain hw

theorem row_canFrameReceived (frame : CanFrame) : Row (.canFrameReceived frame) := by
  refine .of_arrive (execCanFrameReceived frame) (fun _ => rfl) (fun _ => rfl) rfl fun u => onlyBlocks_ite
    (fun _ => onlyBlocks_withBnl _ _) fun _ =>
    ((onlyBlocks_withBnl _ _).handAll _ (filter_watched_nil fun x hx => ?_)).trans (onlyBlocks_considerService _ _ _ _)
  obtain ⟨i, -, rfl⟩ := List.mem_map.mp hx
  rfl

theorem row_htmReturn (r : NetReturn) : Row (.htmReturn r) :=
  .of_arrive (execHtmReturn r) (fun _ => rfl) (fun _ => rfl) rfl fun _ => onlyBlocks_ite (fun _ => onlyBlocks_ite
    (fun _ => (onlyBlocks_withBnl _ _).trans (onlyBlocks_engineTake _)) fun _ => onlyBlocks_withBnl _ _)
    fun _ => .refl _ _

theorem row_wakeEvent (i : Fin 16) : Row (.wakeEvent i) :=
  .of_arrive (execWakeEvent i) (fun _ => rfl) (fun _ => rfl) rfl
    fun _ => onlyBlocks_ite (fun _ => onlyBlocks_recordOutcome _ _ _)
    fun _ => onlyBlocks_ite (fun _ => onlyBlocks_recordOutcome _ _ _) fun _ => (onlyBlocks_withSource _ _ _).hand _ rfl

theorem row_holdExpiry (i : Fin 48) : Row (.holdExpiry i) := by
  refine .of_arrive (execHoldExpiry i) (fun _ => rfl) (fun _ => rfl) rfl fun u => ?_
  split
  · exact onlyBlocks_ite (fun _ => onlyBlocks_settleTable _ _ _ _) fun _ => .refl _ _
  · exact .refl _ _

theorem row_repeatExpiry (i : Fin 48) : Row (.repeatExpiry i) := by
  refine .of_arrive (execRepeatExpiry i) (fun _ => rfl) (fun _ => rfl) rfl fun u => ?_
  split
  · exact onlyBlocks_ite (fun _ => onlyBlocks_settleTable _ _ _ _) fun _ => .refl _ _
  · exact .refl _ _

theorem row_appointmentStart (i : Fin 48) : Row (.appointmentStart i) := by
  refine .of_arrive (execAppointmentStart i) (fun _ => rfl) (fun _ => rfl) rfl fun u => ?_
  split
  · exact onlyBlocks_ite (fun _ => onlyBlocks_settleTable _ _ _ _) fun _ => .refl _ _
  · exact .refl _ _

theorem row_owner47Request (code : Fin 166) : Row (.owner47Request code) := by
  refine .of_arrive (execOwner47Request code) (fun _ => rfl) (fun _ => rfl) rfl fun u => ?_
  split
  · exact onlyBlocks_withHtm _ _
  · split
    · exact onlyBlocks_createEvicting ‹_›
    · exact .refl _ _

theorem row_voltageConversion (vbat : Nat) (shunt : Int) : Row (.voltageConversion vbat shunt) :=
  .of_arrive (execVoltageConversion vbat shunt) (fun _ => rfl) (fun _ => rfl) rfl fun _ =>
    ((onlyBlocks_spm _ _).handAll _ (by split <;> rfl)).raise _

/-- Every command has its row. -/
theorem exec_row (c : Instr) : Row c := by
  cases c
  case powerOnReset => exact .powerOnReset
  case supplyBelowResetThreshold => exact .supplyBelowResetThreshold
  case frameBegin => exact .frameBegin
  case frameRefused => exact .frameRefused _
  case nop => exact .nop
  case blockResult => exact .blockResult _ _ _
  case portReset => exact .portReset
  case portLive => exact .portLive
  case pinLevelChange => exact .pinLevelChange _ _
  case faultReport => exact .faultReport _ _
  case ignChange => exact .ignChange _
  case flagSetting => exact .flagSetting _
  case clearFlags => exact .clearFlags
  case clearService => exact .clearService
  case calibrationAbort => exact .calibrationAbort
  case handOver => exact .handOver _ _
  case request owner mask cls code delay interval cap =>
    exact .of_port (.intro (execRequest owner mask cls code delay interval cap) (fun _ => rfl) (fun _ => rfl) rfl
      fun _ => onlyBlocks_takeRequest _ _ _ _) rfl
  case renew handle code =>
    exact .of_port (.intro (execRenew handle code) (fun _ => rfl) (fun _ => rfl) rfl
      fun _ => onlyBlocks_takeRenew _ _ _ _) rfl
  case release handle =>
    exact .of_port (.intro (execRelease handle) (fun _ => rfl) (fun _ => rfl) rfl
      fun _ => onlyBlocks_takeRelease _ _ _) rfl
  case query handle => exact .of_port (.reads (execQuery handle) (fun _ => rfl) (fun _ => rfl) rfl) rfl
  case find selector value => exact .of_port (.reads (execFind selector value) (fun _ => rfl) (fun _ => rfl) rfl) rfl
  case domainStatus domain => exact .of_port (.reads (execDomainStatus domain) (fun _ => rfl) (fun _ => rfl) rfl) rfl
  case budgetStatus => exact .of_port (.reads execBudgetStatus (fun _ => rfl) (fun _ => rfl) rfl) rfl
  case sourceStatus source => exact .of_port (.reads (execSourceStatus source) (fun _ => rfl) (fun _ => rfl) rfl) rfl
  case clockStatus => exact .of_port (.reads execClockStatus (fun _ => rfl) (fun _ => rfl) rfl) rfl
  case supplyStatus => exact .of_port (.reads execSupplyStatus (fun _ => rfl) (fun _ => rfl) rfl) rfl
  case modeStatus => exact .of_port (.reads execModeStatus (fun _ => rfl) (fun _ => rfl) rfl) rfl
  case limits network control source =>
    exact .of_port (.intro (execLimits network control source) (fun _ => rfl) (fun _ => rfl) rfl
      fun _ => onlyBlocks_withHtm _ _) rfl
  case clear =>
    refine .of_port (.intro execClear (fun _ => rfl) (fun _ => rfl) rfl fun u => ?_) rfl
    dsimp only
    exact onlyBlocks_settleTable _ _ _ _
  case modeConfig delay =>
    exact .of_port (.intro (execModeConfig delay) (fun _ => rfl) (fun _ => rfl) rfl
      fun _ => onlyBlocks_withMdc _ _) rfl
  case events keep =>
    exact .of_port (.intro (execEvents keep) (fun _ => rfl) (fun _ => rfl) rfl
      fun _ => onlyBlocks_withEvu _ _) rfl
  case purge => exact .of_port (portRow_purge _) rfl
  case domainConfig => exact .of_port (portRow_domainConfig _ _ _ _ _ _) rfl
  case clearFault => exact .of_port (portRow_clearFault _) rfl
  case master => exact .of_port (portRow_master _) rfl
  case budgetConfig => exact .of_port (portRow_budgetConfig _ _ _ _ _ _) rfl
  case credit => exact .of_port (portRow_credit _) rfl
  case classConfig => exact .of_port (portRow_classConfig _ _ _) rfl
  case sourceConfig => exact .of_port (portRow_sourceConfig _) rfl
  case filterConfig => exact .of_port (portRow_filterConfig _ _ _ _ _ _ _ _) rfl
  case serviceConfig => exact .of_port (portRow_serviceConfig _ _ _) rfl
  case templateConfig => exact .of_port (portRow_templateConfig _ _ _ _ _ _) rfl
  case setClock => exact .of_port (portRow_setClock _ _ _) rfl
  case voltageConfig => exact .of_port (portRow_voltageConfig _ _) rfl
  case currentConfig => exact .of_port (portRow_currentConfig _) rfl
  case calibrate => exact .of_port portRow_calibrate rfl
  case parkNow => exact .of_port portRow_parkNow rfl
  case eventEnable => exact .of_port (portRow_eventEnable _ _) rfl
  case canFrameReceived => exact row_canFrameReceived _
  case canFrameError =>
    exact .of_arrive execCanFrameError (fun _ => rfl) (fun _ => rfl) rfl fun _ => onlyBlocks_withBnl _ _
  case networkRequest node mask cls code tag =>
    exact .of_arrive (execNetworkRequest node mask cls code tag) (fun _ => rfl) (fun _ => rfl) rfl fun _ =>
      (onlyBlocks_takeRequest _ _ _ _).hand _ rfl
  case networkRenew node handle code =>
    exact .of_arrive (execNetworkRenew node handle code) (fun _ => rfl) (fun _ => rfl) rfl
      fun _ => (onlyBlocks_takeRenew _ _ _ _).hand _ rfl
  case networkRelease node handle =>
    exact .of_arrive (execNetworkRelease node handle) (fun _ => rfl) (fun _ => rfl) rfl
      fun _ => (onlyBlocks_takeRelease _ _ _).hand _ rfl
  case networkQuery node handle =>
    exact .of_arrive (execNetworkQuery node handle) (fun _ => rfl) (fun _ => rfl) rfl
      fun _ => (OnlyBlocks.refl [] _).hand _ rfl
  case tpeReturn source outcome =>
    exact .of_arrive (execTpeReturn source outcome) (fun _ => rfl) (fun _ => rfl) rfl
      fun _ => (OnlyBlocks.refl [] _).hand _ rfl
  case htmReturn => exact row_htmReturn _
  case answerAttemptStart =>
    exact .of_arrive execAnswerAttemptStart (fun _ => rfl) (fun _ => rfl) rfl fun _ =>
      onlyBlocks_ite (fun _ => onlyBlocks_withBnl _ _) fun _ => .refl _ _
  case answerAttemptEnd how =>
    exact .of_arrive (execAnswerAttemptEnd how) (fun _ => rfl) (fun _ => rfl) rfl fun _ => onlyBlocks_ite
      (fun _ => ((onlyBlocks_withBnl _ _).raise _).trans (onlyBlocks_engineTake _)) fun _ => .refl _ _
  case debounceExpiry pin =>
    exact .of_arrive (execDebounceExpiry pin) (fun _ => rfl) (fun _ => rfl) rfl fun _ =>
      onlyBlocks_ite (fun _ => (onlyBlocks_withPin _ _ _).hand _ rfl) fun _ => .refl _ _
  case wakeEvent => exact row_wakeEvent _
  case application source template fields =>
    exact .of_arrive (execApplication source template fields) (fun _ => rfl) (fun _ => rfl) rfl
      fun _ => (onlyBlocks_apply _ _ _ _).hand _ rfl
  case wsuReturn source outcome =>
    exact .of_arrive (execWsuReturn source outcome) (fun _ => rfl) (fun _ => rfl) rfl
      fun _ => onlyBlocks_recordOutcome _ _ _
  case oneSecondExpiry vbat shunt =>
    exact .of_arrive (execOneSecondExpiry vbat shunt) (fun _ => rfl) (fun _ => rfl) rfl
      fun _ => (onlyBlocks_tmb _ _).handAll _ rfl
  case holdSecond =>
    exact .of_arrive execHoldSecond (fun _ => rfl) (fun _ => rfl) rfl fun _ => onlyBlocks_settleTable _ _ _ _
  case holdExpiry => exact row_holdExpiry _
  case repeatExpiry => exact row_repeatExpiry _
  case appointmentStart => exact row_appointmentStart _
  case accountingSecond =>
    exact .of_arrive execAccountingSecond (fun _ => rfl) (fun _ => rfl) rfl fun _ =>
      onlyBlocks_ite (fun _ => onlyBlocks_account _) fun _ => .refl _ _
  case attribution shares =>
    exact .of_arrive (execAttribution shares) (fun _ => rfl) (fun _ => rfl) rfl fun _ => onlyBlocks_settleTable _ _ _ _
  case voltageConversion => exact row_voltageConversion _ _
  case calibrationCompletion shunt =>
    exact .of_arrive (execCalibrationCompletion shunt) (fun _ => rfl) (fun _ => rfl) rfl fun _ =>
      onlyBlocks_ite (fun _ => (onlyBlocks_spm _ _).raise _) fun _ => .refl _ _
  case budgetTierReport tier entry =>
    exact .of_report (execBudgetTierReport tier entry) (fun _ => rfl) (fun _ => rfl) rfl
      (.inl rfl) fun _ => onlyBlocks_tierReport _ _ _
  case voltageCeilingReport ceiling =>
    exact .of_report (execVoltageCeilingReport ceiling) (fun _ => rfl) (fun _ => rfl) rfl
      (.inl rfl) fun _ => onlyBlocks_tierReport _ _ _
  case modeReport mode =>
    exact .of_report (execModeReport mode) (fun _ => rfl) (fun _ => rfl) rfl
      (.inl rfl) fun _ => onlyBlocks_tierReport _ _ _
  case holdDemandReport demand entered =>
    exact .of_report (execHoldDemandReport demand entered) (fun _ => rfl) (fun _ => rfl) rfl (.inr ⟨_, _, rfl⟩) fun _ =>
      onlyBlocks_settleDomains _ _ _
  case runDemandReport asserted =>
    exact .of_report (execRunDemandReport asserted) (fun _ => rfl) (fun _ => rfl) rfl
      (.inl rfl) fun _ => onlyBlocks_settleDomains _ _ _
  case settleExpiry i =>
    exact .of_arrive (execSettleExpiry i) (fun _ => rfl) (fun _ => rfl) rfl fun _ =>
      onlyBlocks_ite (fun _ => onlyBlocks_settleDomains _ _ _) fun _ => .refl _ _
  case stabilityExpiry i =>
    exact .of_arrive (execStabilityExpiry i) (fun _ => rfl) (fun _ => rfl) rfl fun _ =>
      onlyBlocks_ite (fun _ => onlyBlocks_settleDomains _ _ _) fun _ => .refl _ _
  case runDownExpiry i =>
    exact .of_arrive (execRunDownExpiry i) (fun _ => rfl) (fun _ => rfl) rfl fun _ =>
      onlyBlocks_ite (fun _ => onlyBlocks_settleDomains _ _ _) fun _ => .refl _ _
  case backoffExpiry i =>
    exact .of_arrive (execBackoffExpiry i) (fun _ => rfl) (fun _ => rfl) rfl fun _ =>
      onlyBlocks_ite (fun _ => onlyBlocks_settleDomains _ _ _) fun _ => .refl _ _
  case ignDebounceExpiry =>
    exact .of_arrive execIgnDebounceExpiry (fun _ => rfl) (fun _ => rfl) rfl fun _ => onlyBlocks_ite
      (fun _ => (onlyBlocks_withMdc _ _).trans (onlyBlocks_ignitionChanged _ _)) fun _ => .refl _ _
  case parkDelayExpiry =>
    exact .of_arrive execParkDelayExpiry (fun _ => rfl) (fun _ => rfl) rfl fun _ =>
      onlyBlocks_ite (fun _ => onlyBlocks_enterPark _) fun _ => .refl _ _
  case parkEntryRefill =>
    exact .of_report execParkEntryRefill (fun _ => rfl) (fun _ => rfl) rfl
      (.inl rfl) fun _ => (onlyBlocks_cbu _ _).hand _ rfl
  case modeRecord mode =>
    exact .of_report (execModeRecord mode) (fun _ => rfl) (fun _ => rfl) rfl (.inl rfl) fun _ => onlyBlocks_cbu _ _
  case owner47Request => exact row_owner47Request _

/-! ### What follows for every command -/

theorem plain_eq_true (h : plain c = true) :
    c.tracksInput = false ∧ c.movesCsn = false ∧ Block.ctp ∉ c.moves := of_decide_eq_true h

/-- Every command of the Control Port has its row. -/
theorem hasPortRow (hb : c.portBlock.isSome = true) (hcsn : c.movesCsn = true) : HasPortRow c := by
  cases exec_row c
  case port g row _ _ _ _ => exact ⟨g, row⟩
  case arrives f _ _ hp => exact Bool.noConfusion ((plain_eq_true hp).2.1.symm.trans hcsn)
  case reports f _ _ hp _ => exact Bool.noConfusion ((plain_eq_true hp).2.1.symm.trans hcsn)
  case clearFlags | clearService | calibrationAbort => exact absurd hcsn Bool.false_ne_true
  all_goals exact absurd hb Bool.false_ne_true

theorem arrive_completes (c : Instr) (s : State) (f : State → State) : ∃ t, arrive c s f = .next t := by
  unfold arrive
  split <;> exact ⟨_, rfl⟩

theorem arriveReport_completes (c : Instr) (s : State) (f : State → State) : ∃ t, arriveReport c s f = .next t := by
  unfold arriveReport
  repeat' split
  all_goals exact ⟨_, rfl⟩

theorem portCommand_completes (c : Instr) (s : State) (g : State → State × Reply) :
    ∃ t, portCommand c s g = .next t := by
  unfold portCommand
  repeat' split
  all_goals exact ⟨_, rfl⟩

theorem portPart_completes (c : Instr) (s : State) (f : State → State) : ∃ t, portPart c s f = .next t := by
  unfold portPart
  repeat' split
  all_goals exact ⟨_, rfl⟩

/-- An arrival whose level is kept while the part is held, and which is taken otherwise. -/
theorem levelArrival_completes {u : State} {f : State → State}
    (h : exec c s = if s.held then .next u else arrive c s f) : ∃ t, exec c s = .next t := by
  rw [h]
  split
  · exact ⟨_, rfl⟩
  · exact arrive_completes _ _ _

theorem LevelRow.completes {keep : Inputs → Inputs} (row : LevelRow c keep) (s : State) : ∃ t, exec c s = .next t :=
  let ⟨_, e, _⟩ := row
  levelArrival_completes (e s)

theorem WireRow.completes {high : Bool} (row : WireRow c high) (s : State) : ∃ t, exec c s = .next t :=
  let ⟨_, e, _⟩ := row
  levelArrival_completes (e s)

theorem execCalibrationAbort_completes (s : State) : ∃ t, execCalibrationAbort s = .next t := by
  rcases execCalibrationAbort_cases s with ⟨-, h⟩ | ⟨-, s0, -, ⟨-, -, h⟩ | ⟨-, h⟩⟩ <;> rw [h]
  · exact ⟨_, rfl⟩
  · exact arrive_completes _ _ _
  · exact portPart_completes _ _ _

/-- Every command answers a next state. -/
theorem exec_completes (c : Instr) (s : State) : ∃ t, exec c s = .next t := by
  cases exec_row c
  case arrives f e _ _ => exact e s ▸ arrive_completes c s f
  case reports f e _ _ _ => exact e s ▸ arriveReport_completes c s f
  case port g row _ _ _ _ => exact row.exec_eq s ▸ portCommand_completes c s g
  case powerOnReset | supplyBelowResetThreshold => exact ⟨_, rfl⟩
  case frameBegin => exact wireRow_frameBegin.completes s
  case frameRefused bytes => exact (wireRow_frameRefused bytes).completes s
  case nop => exact wireRow_nop.completes s
  case pinLevelChange pin high => exact (levelRow_pinLevelChange pin high).completes s
  case faultReport i active => exact (levelRow_faultReport i active).completes s
  case ignChange high => exact (levelRow_ignChange high).completes s
  case blockResult => exact arrive_completes _ _ _
  case portReset => exact (show ∃ t, execPortReset s = .next t from arriveReport_completes _ _ _)
  case portLive => exact (show ∃ t, execPortLive s = .next t from arriveReport_completes _ _ _)
  case flagSetting flags => exact (show ∃ t, execFlagSetting flags s = .next t from arrive_completes _ _ _)
  case clearFlags | clearService => exact portPart_completes _ _ _
  case calibrationAbort => exact execCalibrationAbort_completes s
  case handOver i j => exact (show ∃ t, execHandOver i j s = .next t from arrive_completes _ _ _)

/-- A command keeps what is not its own. -/
theorem exec_kept (h : exec c s = .next t) : KeptBy c s t := by
  cases exec_row c
  case arrives f e frame _ => exact .of_sameOutside (arrive_sameOutside (e s ▸ h) frame)
  case reports f e frame _ _ => exact .of_sameOutside (arriveReport_sameOutside (e s ▸ h) frame)
  case port g row hcsn _ _ _ => exact portCommand_kept hcsn row.moves row.frame (row.exec_eq s ▸ h)
  case powerOnReset =>
    cases h
    exact .of_reset (by intro b; cases b <;> exact of_decide_eq_true rfl) (.inl rfl) ⟨rfl, rfl, rfl, rfl⟩
  case supplyBelowResetThreshold =>
    cases h
    exact .of_reset (by intro b; cases b <;> exact of_decide_eq_true rfl) (.inr rfl) ⟨rfl, rfl, rfl, rfl⟩
  case frameBegin => exact wireRow_frameBegin.kept rfl List.mem_cons_self h
  case frameRefused bytes => exact (wireRow_frameRefused bytes).kept rfl List.mem_cons_self h
  case nop => exact wireRow_nop.kept rfl List.mem_cons_self h
  case pinLevelChange pin high => exact (levelRow_pinLevelChange pin high).kept rfl h
  case faultReport i active => exact (levelRow_faultReport i active).kept rfl h
  case ignChange high => exact (levelRow_ignChange high).kept rfl h
  case blockResult serial st payload =>
    have h : execBlockResult serial st payload s = .next t := h
    exact .of_sameOutside (arrive_sameOutside h fun _ => onlyBlocks_ite (fun _ => onlyBlocks_withCtp _ _) fun _ =>
      .refl _ _)
  case portReset =>
    have h : execPortReset s = .next t := h
    exact .of_sameOutside (arriveReport_sameOutside h fun _ => onlyBlocks_withCtp _ _)
  case portLive =>
    have h : execPortLive s = .next t := h
    exact .of_sameOutside (arriveReport_sameOutside h fun _ => onlyBlocks_withCtp _ _)
  case flagSetting => exact execFlagSetting_kept h
  case clearFlags => exact execClearFlags_kept h
  case clearService =>
    have h : execClearService s = .next t := h
    exact .of_sameOutside (portPart_sameOutside (fun _ => onlyBlocks_withBnl _ _) h)
  case calibrationAbort => exact execCalibrationAbort_kept h
  case handOver i j =>
    have h : execHandOver i j s = .next t := h
    rcases arrive_eq_next h with ⟨-, rfl⟩ | ⟨-, rfl⟩
    · exact .of_sameOutside (.refl _ _)
    · exact .of_sameOutside (sameOutside_handed _ _ _)

/-! ### The part held in power-on reset (R154) -/

theorem portCommand_held {g : State → State × Reply} (h : s.held = true) :
    portCommand c s g = .next (s.setCsn true) := if_pos h

theorem portPart_held {f : State → State} (h : s.held = true) : portPart c s f = .next s := if_pos h

theorem arriveReport_held {f : State → State} (h : s.held = true) : arriveReport c s f = .next s := if_pos h

/-- While the part is held in power-on reset, an arrival that carries no level and no edge of CSN changes nothing. -/
theorem exec_of_held (hheld : s.held = true) (h1 : c ≠ .powerOnReset) (h2 : c ≠ .supplyBelowResetThreshold)
    (hlevel : c.tracksInput = false) (hcsn : c.movesCsn = false) : exec c s = .next s := by
  cases exec_row c
  case arrives f e _ _ => exact (e s).trans (arrive_held hheld)
  case reports f e _ _ _ => exact (e s).trans (arriveReport_held hheld)
  case port hcsn' _ _ _ => exact Bool.noConfusion (hcsn.symm.trans hcsn')
  case powerOnReset => exact absurd rfl h1
  case supplyBelowResetThreshold => exact absurd rfl h2
  case frameBegin | frameRefused | nop => exact absurd hcsn.symm Bool.false_ne_true
  case pinLevelChange | faultReport | ignChange => exact absurd hlevel.symm Bool.false_ne_true
  case blockResult => exact arrive_held hheld
  case flagSetting flags => exact (show execFlagSetting flags s = .next s from arrive_held hheld)
  case handOver i j => exact (show execHandOver i j s = .next s from arrive_held hheld)
  case portReset => exact (show execPortReset s = .next s from arriveReport_held hheld)
  case portLive => exact (show execPortLive s = .next s from arriveReport_held hheld)
  case clearFlags | clearService => exact portPart_held hheld
  case calibrationAbort => exact if_pos hheld

theorem WireRow.of_held {high : Bool} (row : WireRow c high) (hheld : s.held = true) :
    exec c s = .next (s.setCsn high) :=
  let ⟨_, e, _⟩ := row
  (e s).trans (if_pos hheld)

theorem LevelRow.of_held {keep : Inputs → Inputs} (row : LevelRow c keep) (hheld : s.held = true) :
    exec c s = .next { s with inputs := keep s.inputs } :=
  let ⟨_, e, _⟩ := row
  (e s).trans (if_pos hheld)

/-- While the part is held in power-on reset, a command of the Control Port sets the level of CSN alone. -/
theorem exec_of_held_csn (hheld : s.held = true) (hcsn : c.movesCsn = true) :
    exec c s = .next (s.setCsn (decide (c ≠ .frameBegin))) := by
  cases exec_row c
  case arrives f _ _ hp => exact Bool.noConfusion ((plain_eq_true hp).2.1.symm.trans hcsn)
  case reports f _ _ hp _ => exact Bool.noConfusion ((plain_eq_true hp).2.1.symm.trans hcsn)
  case port g row _ hport _ _ =>
    rw [row.exec_eq, portCommand_held hheld, decide_eq_true]
    rintro rfl
    cases hport
  case frameBegin => exact wireRow_frameBegin.of_held hheld
  case frameRefused bytes => exact (wireRow_frameRefused bytes).of_held hheld
  case nop => exact wireRow_nop.of_held hheld
  all_goals exact absurd hcsn Bool.false_ne_true

/-! ### The levels of the input pins, by the one command that reports each -/

/-- What a command that reports a level does to the levels. -/
theorem exec_inputs (h : exec c s = .next t) :
    t.inputs = { s.inputs with csn := t.inputs.csn } ∨
      (∃ i high, c = .pinLevelChange i high ∧ t.inputs = { s.inputs with wake := wakeLevelsAfter s.inputs.wake i high })
      ∨ (∃ i active, c = .faultReport i active ∧ t.inputs = { s.inputs with trips := tripsAfter s.inputs.trips i active })
      ∨ ∃ high, c = .ignChange high ∧ t.inputs = { s.inputs with ign := high } := by
  by_cases ht : c.tracksInput = false
  · exact .inl ((exec_kept h).levels ht)
  cases exec_row c
  case pinLevelChange i high => exact .inr (.inl ⟨i, high, rfl, (levelRow_pinLevelChange i high).inputs h⟩)
  case faultReport i active => exact .inr (.inr (.inl ⟨i, active, rfl, (levelRow_faultReport i active).inputs h⟩))
  case ignChange high => exact .inr (.inr (.inr ⟨high, rfl, (levelRow_ignChange high).inputs h⟩))
  case arrives f _ _ hp => exact absurd (plain_eq_true hp).1 ht
  case reports f _ _ hp _ => exact absurd (plain_eq_true hp).1 ht
  case port hlevel _ => exact absurd hlevel ht
  all_goals exact absurd rfl ht

theorem exec_trips (hc : ∀ i active, c ≠ .faultReport i active) (h : exec c s = .next t) :
    t.inputs.trips = s.inputs.trips := by
  rcases exec_inputs h with e | ⟨i, high, -, e⟩ | ⟨i, active, rfl, -⟩ | ⟨high, -, e⟩
  · rw [e]
  · rw [e]
  · exact absurd rfl (hc i active)
  · rw [e]

theorem exec_wake (hc : ∀ i high, c ≠ .pinLevelChange i high) (h : exec c s = .next t) :
    t.inputs.wake = s.inputs.wake := by
  rcases exec_inputs h with e | ⟨i, high, rfl, -⟩ | ⟨i, active, -, e⟩ | ⟨high, -, e⟩
  · rw [e]
  · exact absurd rfl (hc i high)
  · rw [e]
  · rw [e]

theorem exec_ign (hc : ∀ high, c ≠ .ignChange high) (h : exec c s = .next t) : t.inputs.ign = s.inputs.ign := by
  rcases exec_inputs h with e | ⟨i, high, -, e⟩ | ⟨i, active, -, e⟩ | ⟨high, rfl, -⟩
  · rw [e]
  · rw [e]
  · rw [e]
  · exact absurd rfl (hc high)

/-- A command but the two of the supply leaves the part held, or not held, as it was. -/
theorem exec_held (h : exec c s = .next t) (h1 : c ≠ .powerOnReset) (h2 : c ≠ .supplyBelowResetThreshold) :
    t.held = s.held := (exec_kept h).held h1 h2

/-- Settles O3: every command completes (`exec_completes`), and what it keeps is `exec_kept`, command by command from
the frames of the shared operations. -/
theorem everyCommandMovesOnlyItsBlocks : Obligations.EveryCommandMovesOnlyItsBlocks :=
  ⟨exec_completes, fun _ _ _ h =>
    have k := exec_kept h
    ⟨k.blocks, k.pending, k.readings, k.ended, k.choices, k.levels, k.csn, k.held⟩⟩

end Sys2Proof.Machine

/-! ### Laws that every step keeps: a step is a command or a crystal period -/

namespace Sys2Proof.Machine

/-- All that a step can be: the command at the front of the queue, what the part takes of its own accord, or a crystal
period. -/
theorem step_cases {s t : State} (h : step s = .next t) :
    (∃ c rest, s.pending = c :: rest ∧ exec c { s with pending := rest } = .next t)
      ∨ (∃ c, s.nextOwn = some c ∧ exec c s = .next t) ∨ t = s.crystalPeriod := by
  unfold step ownStep at h
  split at h
  · exact .inl ⟨_, _, ‹_›, h⟩
  · split at h
    · exact .inr (.inl ⟨_, ‹_›, h⟩)
    · cases h
      exact .inr (.inr rfl)

/-- A command keeps a law. -/
def Keeps (P : State → Prop) (c : Instr) : Prop := ∀ s t, P s → exec c s = .next t → P t

/-- A law that reads one block alone is kept by a command that does not move the block. -/
theorem Keeps.of_block {P : State → Prop} {b : Block} (hP : ∀ s t, b.sameIn s t → P s → P t) (c : Instr)
    (hm : decide (b ∈ c.moves) = false) : Keeps P c := fun s t hs h =>
  hP s t ((exec_kept h).blocks b (of_decide_eq_false hm)) hs

/-- A law that does not read the queue, that every command keeps and a crystal period too, is kept by every step. -/
theorem step_keeps {P : State → Prop} (hqueue : ∀ s rest, P s → P { s with pending := rest })
    (hexec : ∀ c, Keeps P c) (hcrystal : ∀ s, P s → P s.crystalPeriod) (s t : State) (hs : P s)
    (h : step s = .next t) : P t := by
  rcases step_cases h with ⟨c, rest, -, h⟩ | ⟨c, -, h⟩ | rfl
  · exact hexec c _ t (hqueue s rest hs) h
  · exact hexec c s t hs h
  · exact hcrystal s hs

/-- A crystal period moves the timers and the phase, and hands at most an expiry over. -/
theorem crystalPeriod_sameOutside (s : State) :
    ∃ n, SameOutside [.dsc, .wsu, .mdc, .tmb] { s with readings := n } s.crystalPeriod := by
  unfold State.crystalPeriod State.advancePhase
  split
  · exact ⟨s.readings, .refl _ _⟩
  · split
    · exact ⟨s.readings,
        fun b hb => by cases b <;> first | rfl | exact absurd (of_decide_eq_true rfl) hb, rfl, rfl, rfl, rfl, rfl, rfl⟩
    · exact ⟨s.readings + 1,
        fun b hb => by cases b <;> first | rfl | exact absurd (of_decide_eq_true rfl) hb, rfl, rfl, rfl, rfl, rfl, rfl⟩

theorem crystalPeriod_sameIn {b : Block} (hb : b ∉ [Block.dsc, .wsu, .mdc, .tmb]) (s : State) :
    b.sameIn s s.crystalPeriod := by
  obtain ⟨n, h⟩ := crystalPeriod_sameOutside s
  exact Block.sameIn_trans (by cases b <;> rfl) (h.blocks b hb)

/-- A law that reads neither the port with CSN, nor what is in flight. -/
structure BlindToPort (P : State → Prop) : Prop where
  port : ∀ s p csn, P s → P (s.withPort p csn)
  handed : ∀ s cs, P s → P { s with handed := cs }

section
variable {P : State → Prop} {c : Instr} {s t : State}

theorem BlindToPort.raise (hP : BlindToPort P) {fs : List Flag} (hs : P s) : P (s.raise fs) := by
  rw [State.raise_eq]
  exact hP.handed _ _ hs

/-- Such a law is kept by an arrival whose handling keeps it. -/
theorem arrive_keeps (hP : BlindToPort P) {f : State → State} (hf : ∀ u, u.held = false → P u → P (f u)) (hs : P s)
    (h : arrive c s f = .next t) : P t := by
  rcases arrive_eq_next h with ⟨-, rfl⟩ | ⟨hheld, rfl⟩
  · exact hs
  · exact hf _ hheld (hP.handed _ _ hs)

theorem arriveReport_keeps (hP : BlindToPort P) {f : State → State} (hf : ∀ u, u.held = false → P u → P (f u))
    (hs : P s) (h : arriveReport c s f = .next t) : P t := by
  rcases arriveReport_eq_next h with ⟨-, rfl⟩ | ⟨⟨hheld, -⟩, rfl⟩ | ⟨-, -, ⟨-, rfl⟩ | ⟨-, rfl⟩⟩
  · exact hs
  · exact hf _ hheld (hP.handed _ _ hs)
  · exact hs
  · exact hP.handed _ _ hs

theorem portCommand_keeps (hP : BlindToPort P) {g : State → State × Reply}
    (hg : ∀ u, u.held = false → P u → P (g u).1) (hs : P s) (h : portCommand c s g = .next t) : P t := by
  rcases portCommand_eq_next h with ⟨-, rfl⟩ | ⟨-, -, rfl⟩ | ⟨n, s1, htake, rfl⟩
  · exact hP.port s s.ctp true hs
  · obtain ⟨p, csn, e⟩ := portLeft_eq_withPort c s
    exact e ▸ hP.port s p csn hs
  · obtain ⟨p, csn, rfl⟩ := portTake_eq_withPort htake.2
    exact hP.handed _ _ (hg _ htake.1 (hP.port s p csn hs))

theorem portPart_keeps (hP : BlindToPort P) {f : State → State} (hf : ∀ u, u.held = false → P u → P (f u)) (hs : P s)
    (h : portPart c s f = .next t) : P t := by
  rcases portPart_eq_next h with ⟨-, rfl⟩ | ⟨-, -, rfl⟩ | ⟨s1, htake, rfl⟩
  · exact hs
  · exact hs
  · obtain ⟨p, rfl⟩ := partTake_eq_withPort htake.2
    exact hf _ htake.1 (hP.port s p _ hs)

end

/-! ### The budget's bounds (03) -/

theorem budgetSound_congr {s t : State} (h : t.cbu = s.cbu) (hs : budgetSound s) : budgetSound t := by
  obtain ⟨h1, h2, h3, h4, h5, h6, h7⟩ := hs
  rw [← h] at h1 h2 h3 h4 h5 h6 h7
  exact ⟨h1, h2, h3, h4, h5, h6, h7⟩

theorem budgetSound_blind : BlindToPort budgetSound :=
  ⟨fun _ _ _ => budgetSound_congr rfl, fun _ _ => budgetSound_congr rfl⟩

/-- A budget whose fraction and tier have just been formed is sound when its other quantities are within bounds. -/
theorem budgetSound_of_formed {s : State} {b : Cbu} (h : s.cbu = b.formed)
    (allowance : 1 ≤ b.allowance ∧ b.allowance ≤ 65535) (remaining : b.remaining ≤ b.allowanceCharge)
    (settings : b.quiescent ≤ 500 ∧ b.blend ≤ 32) (thresholds : 1 ≤ b.tr ∧ b.tr < b.ta ∧ b.ta < b.tg ∧ b.tg ≤ 256)
    (counters : b.parkSeconds ≤ Config.counterMax ∧ b.debited ≤ Config.counterMax) : budgetSound s := by
  constructor <;> rw [h]
  · exact allowance
  · exact remaining
  · rfl
  · rfl
  · exact settings
  · exact thresholds
  · exact counters

theorem satAdd_le (x n : Nat) : satAdd x n ≤ Config.counterMax := Nat.min_le_right _ _

/-- The thresholds that R59 lets pass. -/
theorem thresholdsOk_iff {tg ta tr : Nat} :
    thresholdsOk tg ta tr = true ↔ 1 ≤ tr ∧ tr < ta ∧ ta < tg ∧ tg ≤ 256 := by
  simp only [thresholdsOk, decide_eq_true_eq]
  omega

theorem budgetSound_configured {s : State} (hs : budgetSound s) {allowance q : BitVec 16} {k : Byte}
    {tg ta tr : BitVec 16} (ha : allowance.toNat ≠ 0) (ht : thresholdsOk tg.toNat ta.toNat tr.toNat = true) :
    budgetSound (s.withBudget (s.cbu.configured allowance.toNat q.toNat k.toNat tg.toNat ta.toNat tr.toNat)) :=
  budgetSound_of_formed (State.withBudget_cbu _ _) ⟨Nat.one_le_iff_ne_zero.mpr ha, Nat.le_of_lt_succ allowance.isLt⟩
    (Nat.min_le_right _ _) ⟨Nat.min_le_right _ _, Nat.min_le_right _ _⟩ (thresholdsOk_iff.mp ht) hs.counters

theorem budgetSound_credited {s : State} (hs : budgetSound s) (x : Nat) :
    budgetSound (s.withBudget (s.cbu.credited x)) :=
  budgetSound_of_formed (State.withBudget_cbu _ _) hs.allowance (Nat.min_le_left _ _) hs.settings hs.thresholds
    hs.counters

theorem budgetSound_refilled {s : State} (hs : budgetSound s) : budgetSound { s with cbu := s.cbu.refilled } :=
  budgetSound_of_formed rfl hs.allowance (Nat.le_refl _) hs.settings hs.thresholds ⟨Nat.zero_le _, Nat.zero_le _⟩

theorem budgetSound_account {s : State} (hs : budgetSound s) : budgetSound s.account := by
  have hdebit : ∀ d e m, budgetSound (s.withBudget (s.cbu.debitedBy d e m)) := fun d e m =>
    budgetSound_of_formed (State.withBudget_cbu _ _) hs.allowance ((Nat.sub_le _ _).trans hs.remaining) hs.settings
      hs.thresholds ⟨satAdd_le _ _, satAdd_le _ _⟩
  unfold State.account
  dsimp only
  split
  · exact hdebit _ _ _
  · exact budgetSound_blind.handed _ _ (hdebit _ _ _)

theorem budgetSound_reset (s : State) (ign : Bool) (h : s.cbu = Cbu.reset ign) : budgetSound s := by
  constructor <;> rw [h] <;> simp only [Cbu.reset, Cbu.allowanceCharge] <;> decide

theorem exec_budgetSound (c : Instr) : Keeps budgetSound c := by
  have kept := Keeps.of_block (b := .cbu) (P := budgetSound) fun _ _ => budgetSound_congr
  cases c
  case powerOnReset | supplyBelowResetThreshold =>
    intro s t hs h
    cases h
    exact budgetSound_reset _ s.inputs.ign rfl
  case budgetConfig =>
    intro s t hs h
    change execBudgetConfig _ _ _ _ _ _ s = _ at h
    refine portCommand_keeps budgetSound_blind (fun u _ hu => ?_) hs h
    dsimp only
    split
    · exact hu
    · rename_i hok
      rw [not_or] at hok
      exact budgetSound_configured hu hok.1 (by simpa using hok.2)
  case credit =>
    intro s t hs h
    change execCredit _ s = _ at h
    refine portCommand_keeps budgetSound_blind (fun u _ hu => ?_) hs h
    dsimp only
    split
    · exact hu
    · exact budgetSound_credited hu _
  case accountingSecond =>
    intro s t hs h
    change execAccountingSecond s = _ at h
    refine arrive_keeps budgetSound_blind (fun u _ hu => ?_) hs h
    split
    · exact budgetSound_account hu
    · exact hu
  case parkEntryRefill =>
    intro s t hs h
    change execParkEntryRefill s = _ at h
    exact arriveReport_keeps budgetSound_blind
      (fun u _ hu => budgetSound_blind.handed _ _ (budgetSound_refilled hu)) hs h
  case modeRecord =>
    intro s t hs h
    change execModeRecord _ s = _ at h
    refine arriveReport_keeps budgetSound_blind (fun u _ hu => ?_) hs h
    exact ⟨hu.allowance, hu.remaining, hu.fraction, hu.tier, hu.settings, hu.thresholds, hu.counters⟩
  all_goals exact kept _ (Eq.refl false)

/-- Settles O12: the commands that move the CBU keep its bounds, each by the arithmetic of its own handling; no other
command and no crystal period moves the CBU. -/
theorem budgetStaysWithinBounds : Obligations.BudgetStaysWithinBounds :=
  step_keeps (fun _ _ => budgetSound_congr rfl) exec_budgetSound fun s =>
    budgetSound_congr (crystalPeriod_sameIn (b := .cbu) (by simp) s)

/-! ### The service queue and the answer buffer (09) -/

/-- A listener that is sound but for a frame that the engine may still have to take. -/
structure engineReady (b : Bnl) : Prop where
  identifiers : b.serviceId ≠ b.answerId
  queue : b.queue.length ≤ 2
  frames : ∀ f, f ∈ b.queue → f.length = 8
  answer : b.answer.isSome = true ↔ (b.buffer = .full ∨ b.buffer = .sending)
  answerBytes : ∀ a, b.answer = some a → a.length = 8
  sending : b.sendingId.isSome = true ↔ b.buffer = .sending
  cancel : b.cancel = true → b.buffer = .reserved ∨ b.buffer = .sending
  disabled : b.enable = false → b.queue = [] ∧ (b.buffer = .empty ∨ b.cancel = true)

theorem serviceSound_iff {s : State} :
    serviceSound s ↔ engineReady s.bnl ∧ (s.bnl.buffer = .empty → s.bnl.queue = []) :=
  ⟨fun h => ⟨⟨h.identifiers, h.queue, h.frames, h.answer, h.answerBytes, h.sending, h.cancel, h.disabled⟩, h.drained⟩,
    fun ⟨h, hd⟩ => ⟨h.identifiers, h.queue, h.frames, hd, h.answer, h.answerBytes, h.sending, h.cancel, h.disabled⟩⟩

theorem serviceSound_congr {s t : State} (h : t.bnl = s.bnl) (hs : serviceSound s) : serviceSound t := by
  rw [serviceSound_iff] at hs ⊢
  rwa [h]

theorem serviceSound_blind : BlindToPort serviceSound :=
  ⟨fun _ _ _ => serviceSound_congr rfl, fun _ _ => serviceSound_congr rfl⟩

/-- Every answer has 8 bytes (R203). -/
theorem length_answerBytes (st : Status) (op node : Byte) (rest : List Byte) :
    (answerBytes st op node rest).length = 8 := by
  simp [answerBytes]

theorem length_answerOf (r : NetReturn) : (answerOf r).length = 8 := by
  cases r <;> exact length_answerBytes _ _ _ _

/-- What stands on CANTX is no part of the law. -/
theorem engineReady.withTx {b : Bnl} (h : engineReady b) (x : CanTx) : engineReady { b with tx := x } :=
  ⟨h.identifiers, h.queue, h.frames, h.answer, h.answerBytes, h.sending, h.cancel, h.disabled⟩

theorem serviceSound.withTx {s : State} (h : serviceSound s) (x : CanTx) :
    serviceSound (s.withBnl { s.bnl with tx := x }) :=
  have ⟨hr, hd⟩ := serviceSound_iff.mp h
  serviceSound_iff.mpr ⟨hr.withTx x, hd⟩

theorem engineReady.emptied {b : Bnl} (h : engineReady b) : engineReady b.emptied :=
  ⟨h.identifiers, h.queue, h.frames, by simp [Bnl.emptied], by simp [Bnl.emptied], by simp [Bnl.emptied],
    by simp [Bnl.emptied], fun he => ⟨(h.disabled he).1, .inl rfl⟩⟩

/-- The engine leaves no frame queued behind an EMPTY buffer (R174). -/
theorem serviceSound_engineTake {s : State} (h : engineReady s.bnl) : serviceSound s.engineTake := by
  unfold State.engineTake
  split
  · rename_i f rest hbuffer hqueue
    have hlen : rest.length ≤ 2 := by
      have := h.queue
      rw [hqueue, List.length_cons] at this
      omega
    have hframes : ∀ g, g ∈ rest → g.length = 8 := fun g hg => h.frames g (by simp [hqueue, hg])
    have henabled : s.bnl.enable ≠ false := fun he => by simpa [hqueue] using (h.disabled he).1
    have hcancel : s.bnl.cancel = false := by
      by_contra hc
      simpa [hbuffer] using h.cancel (by simpa using hc)
    have hnone : s.bnl.answer = none := by
      by_contra hne
      simpa [hbuffer] using h.answer.mp (Option.isSome_iff_ne_none.mpr hne)
    have hsending : s.bnl.sendingId = none := by
      by_contra hne
      simpa [hbuffer] using h.sending.mp (Option.isSome_iff_ne_none.mpr hne)
    split
    · refine serviceSound_iff.mpr ⟨⟨h.identifiers, hlen, hframes, ?_, ?_, ?_, ?_, ?_⟩, ?_⟩
      all_goals simp [hcancel, hsending, henabled, length_answerBytes]
    · refine serviceSound_iff.mpr ⟨⟨h.identifiers, hlen, hframes, ?_, ?_, ?_, ?_, ?_⟩, ?_⟩
      all_goals simp [hcancel, hsending, hnone, henabled]
  · rename_i hno
    refine serviceSound_iff.mpr ⟨h, fun hempty => ?_⟩
    cases hq : s.bnl.queue with
    | nil => rfl
    | cons f rest => exact absurd hq (hno f rest hempty)

/-- A listener is cancelled by what is in hand, enabled or not; then it has nothing queued, and a mark where the HTM or
the attempt is still to end (R172, R178). -/
theorem engineReady_cancelled {b : Bnl} (h : engineReady { b with enable := true }) :
    engineReady b.cancelled ∧ b.cancelled.queue = [] := by
  obtain ⟨hid, -, -, ha, hab, hs, hc, -⟩ := h
  dsimp only at hid ha hab hs hc
  unfold Bnl.cancelled
  cases hb : b.buffer with
  | empty | reserved | sending =>
    refine ⟨⟨hid, by simp, by simp, ?_, hab, ?_, ?_, ?_⟩, rfl⟩ <;> simp_all
  | full =>
    exact ⟨⟨hid, by simp, by simp, by simp [Bnl.emptied], by simp [Bnl.emptied], by simp [Bnl.emptied],
      by simp [Bnl.emptied], by simp [Bnl.emptied]⟩, rfl⟩

theorem serviceSound_cancelled {s : State} (h : serviceSound s) : serviceSound (s.withBnl s.bnl.cancelled) :=
  have ⟨⟨hid, hq, hf, ha, hab, hs, hc, _⟩, _⟩ := serviceSound_iff.mp h
  have hcancelled := engineReady_cancelled (b := s.bnl) ⟨hid, hq, hf, ha, hab, hs, hc, by simp⟩
  serviceSound_iff.mpr ⟨hcancelled.1, fun _ => hcancelled.2⟩

theorem serviceSound_configured {s : State} (h : serviceSound s) (enable : Bool) {service answer : BitVec 11}
    (hne : service ≠ answer) : serviceSound (s.withBnl (s.bnl.configured enable service answer)) := by
  obtain ⟨⟨-, hq, hf, ha, hab, hs, hc, hd⟩, hdr⟩ := serviceSound_iff.mp h
  unfold Bnl.configured
  dsimp only
  split
  · have hcancelled := engineReady_cancelled
      (b := { s.bnl with enable := enable, serviceId := service, answerId := answer })
      ⟨hne, hq, hf, ha, hab, hs, hc, by simp⟩
    exact serviceSound_iff.mpr ⟨hcancelled.1, fun _ => hcancelled.2⟩
  · rename_i hno
    refine serviceSound_iff.mpr ⟨⟨hne, hq, hf, ha, hab, hs, hc, fun he => hd ?_⟩, hdr⟩
    simp only [State.withBnl_bnl] at he
    simpa [he] using hno

theorem serviceSound_considerService {s : State} (h : serviceSound s) (ident : BitVec 11) (remote : Bool)
    (bytes : List Byte) (hen : s.bnl.enable = true) : serviceSound (s.considerService ident remote bytes) := by
  obtain ⟨hid, hq, hf, ha, hab, hs, hc, hd⟩ := (serviceSound_iff.mp h).1
  unfold State.considerService
  split
  · rename_i hjoins
    split
    · exact serviceSound_blind.raise h
    · rename_i hroom
      refine serviceSound_engineTake ⟨hid, ?_, ?_, ha, hab, hs, hc, by simp [hen]⟩
      · simp only [State.withBnl_bnl, List.length_append, List.length_singleton]
        omega
      · intro f hmem
        rcases List.mem_append.mp hmem with hmem | hmem
        · exact hf f hmem
        · rw [List.mem_singleton.mp hmem]
          exact hjoins.2.2
  · exact h

theorem engineReady_reset : engineReady Bnl.reset :=
  ⟨by decide, by decide, (by intro f hf; cases hf), by decide, (by intro a ha; cases ha), by decide, by decide,
    by decide⟩

theorem exec_serviceSound (c : Instr) : Keeps serviceSound c := by
  have kept := Keeps.of_block (b := .bnl) (P := serviceSound) fun _ _ => serviceSound_congr
  cases c
  case powerOnReset | supplyBelowResetThreshold =>
    intro s t hs h
    cases h
    exact serviceSound_iff.mpr ⟨engineReady_reset, fun _ => rfl⟩
  case filterConfig =>
    intro s t hs h
    change execFilterConfig _ _ _ _ _ _ _ _ s = _ at h
    refine portCommand_keeps serviceSound_blind (fun u _ hu => ?_) hs h
    split
    · obtain ⟨hid, hq, hf, hdr, ha, hab, hs, hc, hd⟩ := hu
      exact ⟨hid, hq, hf, hdr, ha, hab, hs, hc, hd⟩
    · exact hu
  case serviceConfig =>
    intro s t hs h
    change execServiceConfig _ _ _ s = _ at h
    refine portCommand_keeps serviceSound_blind (fun u _ hu => ?_) hs h
    repeat' split
    · exact hu
    · exact serviceSound_configured hu _ ‹_›
    · exact hu
  case clearService =>
    intro s t hs h
    change execClearService s = _ at h
    exact portPart_keeps serviceSound_blind (fun u _ hu => serviceSound_cancelled hu) hs h
  case canFrameReceived =>
    intro s t hs h
    change execCanFrameReceived _ s = _ at h
    refine arrive_keeps serviceSound_blind (fun u _ hu => ?_) hs h
    split
    · exact hu.withTx _
    · rename_i hno
      rw [not_or] at hno
      exact serviceSound_considerService (serviceSound_blind.handed _ _ (hu.withTx _)) _ _ _ (by simpa using hno.2)
  case canFrameError =>
    intro s t hs h
    change execCanFrameError s = _ at h
    exact arrive_keeps serviceSound_blind (fun u _ hu => hu.withTx _) hs h
  case htmReturn r =>
    intro s t hs h
    change execHtmReturn _ s = _ at h
    refine arrive_keeps serviceSound_blind (fun u _ hu => ?_) hs h
    obtain ⟨hid, hq, hf, ha, hab, hsend, hc, hd⟩ := (serviceSound_iff.mp hu).1
    split
    · rename_i hres
      split
      · exact serviceSound_engineTake (serviceSound_iff.mp hu).1.emptied
      · rename_i hcancel
        have hnone : u.bnl.sendingId = none := by simpa [hres] using hsend
        refine serviceSound_iff.mpr ⟨⟨hid, hq, hf, ?_, ?_, ?_, ?_, fun he => ?_⟩, ?_⟩
        · simp
        · simp [length_answerOf]
        · simp [hnone]
        · simp [hcancel]
        · exact absurd (hd he).2 (by simp [hres, hcancel])
        · simp
    · exact hu
  case answerAttemptStart =>
    intro s t hs h
    change execAnswerAttemptStart s = _ at h
    refine arrive_keeps serviceSound_blind (fun u _ hu => ?_) hs h
    obtain ⟨hid, hq, hf, ha, hab, hsend, hc, hd⟩ := (serviceSound_iff.mp hu).1
    split
    · rename_i hfull
      refine serviceSound_iff.mpr ⟨⟨hid, hq, hf, ?_, hab, ?_, ?_, ?_⟩, ?_⟩
      · simpa [hfull.1] using ha
      · simp
      · simp
      · simp [hfull.2]
      · simp
    · exact hu
  case answerAttemptEnd =>
    intro s t hs h
    change execAnswerAttemptEnd _ s = _ at h
    refine arrive_keeps serviceSound_blind (fun u _ hu => ?_) hs h
    split
    · refine serviceSound_engineTake ?_
      rw [State.raise_bnl]
      exact (serviceSound_iff.mp hu).1.emptied.withTx _
    · exact hu
  all_goals exact kept _ (Eq.refl false)

/-- Settles O14: the engine's taking restores the law from `engineReady`, which every handling of the listener leaves;
no other command and no crystal period moves the listener. -/
theorem serviceQueueAndAnswerBufferStaySound : Obligations.ServiceQueueAndAnswerBufferStaySound :=
  step_keeps (fun _ _ => serviceSound_congr rfl) exec_serviceSound fun s =>
    serviceSound_congr (crystalPeriod_sameIn (b := .bnl) (by simp) s)

end Sys2Proof.Machine

/-! ### Gates (R81, R86, R90, R92) -/

namespace Sys2Proof.Machine

variable {c : Instr} {s t : State}

theorem crystalPeriod_frame (s : State) :
    s.crystalPeriod.held = s.held ∧ s.crystalPeriod.inputs = s.inputs := by
  obtain ⟨n, h⟩ := crystalPeriod_sameOutside s
  exact ⟨h.held, h.inputs⟩

/-- The level of a trip input as an arrival leaves it. -/
theorem tripsAfter_getLsbD (trips : DomainSet) (i j : Fin 12) (active : Bool) :
    (tripsAfter trips i active).getLsbD j.val = if j = i then active else trips.getLsbD j.val := by
  have hj := j.isLt
  unfold tripsAfter
  by_cases hji : j = i
  · subst hji
    cases active <;> simp
  · have hne : j.val ≠ i.val := fun e => hji (Fin.ext e)
    cases active <;> simp [hji, hj] <;> omega

/-- The level of a wake pin as an arrival leaves it. -/
theorem wakeLevelsAfter_getLsbD (levels : BitVec 8) (i j : Fin 8) (high : Bool) :
    (wakeLevelsAfter levels i high).getLsbD j.val = if j = i then high else levels.getLsbD j.val := by
  have hj := j.isLt
  unfold wakeLevelsAfter
  by_cases hji : j = i
  · subst hji
    cases high <;> simp
  · have hne : j.val ≠ i.val := fun e => hji (Fin.ext e)
    cases high <;> simp [hji, hj] <;> omega

/-! ### The gate law of the domains (04) -/

/-- What is sound of one domain, by its own record and whether the master gate leaves its gate free (R76, R81, R90). -/
structure domainSound (free : Bool) (d : Domain) : Prop where
  gate : d.state.gateClosed = true → d.enable = true ∧ free = true
  faulted : d.state = .faulted → d.enable = true
  machine : machineSound d
  settings : settingsSound d

theorem Dsc.usable_eq_true {d : Dsc} {i : Fin 12} :
    d.usable i = true ↔ (d.domains[i]'i.2).enable = true ∧ d.gateFree i = true := by
  simp [Dsc.usable]

theorem domainsSound_iff {s : State} :
    domainsSound s ↔ (∀ i : Fin 12, domainSound (s.dsc.gateFree i) (s.dsc.domains[i]'i.2))
      ∧ (∀ i : Fin 12, (s.dsc.domains[i]'i.2).state.gateClosed = true → s.held = false ∧ s.inputs.trips.getLsbD i.val = false)
      ∧ (s.dsc.domains[(0 : Fin 12)]'(Fin.isLt 0)).enable = true :=
  ⟨fun h => ⟨fun i => ⟨fun hc => Dsc.usable_eq_true.mp (h.gate i hc), h.faulted i, h.machine i, h.settings i⟩, h.trip, h.host⟩,
    fun ⟨h, ht, hh⟩ => ⟨fun i hc => Dsc.usable_eq_true.mpr ((h i).gate hc), ht, fun i => (h i).faulted, hh,
      fun i => (h i).machine, fun i => (h i).settings⟩⟩

theorem domainsSound_congr {s t : State} (hdsc : t.dsc = s.dsc) (hheld : t.held = s.held)
    (htrips : t.inputs.trips = s.inputs.trips) (hs : domainsSound s) : domainsSound t := by
  rw [domainsSound_iff] at hs ⊢
  rwa [hdsc, hheld, htrips]

theorem domainsSound_blind : BlindToPort domainsSound :=
  ⟨fun _ _ _ => domainsSound_congr rfl rfl rfl, fun _ _ => domainsSound_congr rfl rfl rfl⟩

/-! #### The transitions of one domain -/

variable {free : Bool} {d : Domain}

/-- A sound domain that is not LATCHED has at most three attempts. -/
theorem machineSound.attempts_le (h : machineSound d) (hl : d.state ≠ .latched) : d.attempts ≤ 3 := by
  unfold machineSound at h
  split at h <;> first | exact h.2 | exact h.2.2 | exact absurd ‹_› hl

theorem machineSound_on (h : d.state = .on) :
    machineSound d ↔ (d.timer.isSome = true ↔ 1 ≤ d.attempts) ∧ d.attempts ≤ 3 := by
  simp only [machineSound, h]

theorem not_latched_of_gateClosed (h : d.state.gateClosed = true) : d.state ≠ .latched := by
  intro e
  rw [e] at h
  cases h

/-- The demanded status is no part of the law. -/
theorem domainSound.withDemanded (h : domainSound free d) (demanded : Bool) :
    domainSound free { d with demanded := demanded } := ⟨h.gate, h.faulted, h.machine, h.settings⟩

theorem domainSound.wake (h : domainSound free d) (hl : d.attempts ≤ 3) (he : d.enable = true) (hf : free = true) :
    domainSound free d.wake :=
  ⟨fun _ => ⟨he, hf⟩, fun _ => he, ⟨rfl, hl⟩, h.settings⟩

theorem domainSound.offCleared (h : domainSound free d) : domainSound free d.offCleared :=
  ⟨(fun hc => by cases hc), (fun e => by cases e), ⟨rfl, Nat.zero_le _⟩, h.settings⟩

theorem domainSound.enterOn (h : domainSound free d) (hc : d.state.gateClosed = true) : domainSound free d.enterOn := by
  refine ⟨fun _ => h.gate hc, (fun e => by cases e), ⟨?_, h.machine.attempts_le (not_latched_of_gateClosed hc)⟩, h.settings⟩
  by_cases h0 : d.attempts = 0
  · simp [Domain.enterOn, h0]
  · simp [Domain.enterOn, h0, startTimer]
    omega

theorem domainSound.runOut (h : domainSound free d) (hc : d.state.gateClosed = true) : domainSound free d.runOut := by
  unfold Domain.runOut
  split
  · exact h.offCleared
  · exact ⟨fun _ => h.gate hc, (fun e => by cases e),
      ⟨rfl, h.machine.attempts_le (not_latched_of_gateClosed hc)⟩, h.settings⟩

theorem domainSound.tripped (h : domainSound free d) (hc : d.state.gateClosed = true) : domainSound free d.tripped := by
  have hle := h.machine.attempts_le (not_latched_of_gateClosed hc)
  unfold Domain.tripped
  split
  · exact ⟨(fun e => by cases e), (fun e => by cases e), ⟨rfl, (by dsimp only; omega)⟩, h.settings⟩
  · exact ⟨(fun e => by cases e), fun _ => (h.gate hc).1, ⟨rfl, by dsimp only; omega⟩, h.settings⟩

theorem Domain.tripped_gateClosed (d : Domain) : d.tripped.state.gateClosed = false := by
  unfold Domain.tripped
  split <;> rfl

/-- A domain moves soundly: its record stays sound, and its gate closes only as it enters WAKING. -/
structure soundMove (free : Bool) (d d' : Domain) : Prop where
  sound : domainSound free d'
  entry : d'.state.gateClosed = true → d.state.gateClosed = true ∨ d'.state = .waking

theorem soundMove.refl (h : domainSound free d) : soundMove free d d := ⟨h, .inl⟩

/-- A domain whose gate was closed may move to any sound record. -/
theorem soundMove.of_closed {d' : Domain} (h : domainSound free d') (hc : d.state.gateClosed = true) :
    soundMove free d d' := ⟨h, fun _ => .inl hc⟩

theorem soundMove.of_wakeIf {e : Domain} {demanded usable : Bool} (h : domainSound free d) (hoff : d.state = .off)
    (hu : usable = true → d.enable = true ∧ free = true) : soundMove free e (d.wakeIf demanded usable) := by
  unfold Domain.wakeIf
  split
  · rename_i hw
    rw [Bool.and_eq_true] at hw
    obtain ⟨he, hf⟩ := hu hw.2
    exact ⟨h.wake (h.machine.attempts_le (by simp [hoff])) he hf, fun _ => .inr rfl⟩
  · exact ⟨h, fun hc => by rw [hoff] at hc; cases hc⟩

theorem Domain.wakeIf_enable (d : Domain) (demanded usable : Bool) : (d.wakeIf demanded usable).enable = d.enable := by
  unfold Domain.wakeIf
  split <;> rfl

theorem Domain.runOut_enable (d : Domain) : d.runOut.enable = d.enable := by
  unfold Domain.runOut
  split <;> rfl

theorem Domain.onDemand_enable (d : Domain) (demanded usable : Bool) :
    (d.onDemand demanded usable).enable = d.enable := by
  unfold Domain.onDemand
  split
  · rfl
  · dsimp only
    split
    · exact Domain.wakeIf_enable _ _ _
    · rfl
    · exact Domain.runOut_enable _
    · rfl

theorem soundMove.onDemand {demanded usable : Bool} (h : domainSound free d)
    (hu : usable = true → d.enable = true ∧ free = true) : soundMove free d (d.onDemand demanded usable) := by
  unfold Domain.onDemand
  split
  · exact .refl h
  · have hd := h.withDemanded demanded
    dsimp only
    split
    · exact .of_wakeIf hd ‹_› hu
    · rename_i hs _
      exact .of_closed (hd.enterOn (by simp [hs, DomainState.gateClosed])) (by simp [hs, DomainState.gateClosed])
    · rename_i hs _
      exact .of_closed (hd.runOut (by simp [hs, DomainState.gateClosed])) (by simp [hs, DomainState.gateClosed])
    · exact ⟨hd, .inl⟩

theorem domainSound.offKept (hm : machineSound d) (hs : settingsSound d) (hl : d.state ≠ .latched) :
    domainSound free d.offKept :=
  ⟨(fun hc => by cases hc), (fun e => by cases e), ⟨rfl, hm.attempts_le hl⟩, hs⟩

/-- The settings as stored keep the clamps, whatever they were (R76). -/
theorem settingsSound_withSettings (d : Domain) (en run : Bool) (draw settle runDown : Nat) :
    settingsSound (d.withSettings en run draw settle runDown) := by
  simp only [settingsSound, Domain.withSettings]
  omega

/-- How a domain moves does not change the enable that is stored (R90). -/
theorem Domain.reconfigured_enable (d : Domain) (was demanded usable : Bool) :
    (d.reconfigured was demanded usable).enable = d.enable := by
  unfold Domain.reconfigured
  repeat' split
  all_goals first | rfl | exact Domain.wakeIf_enable _ _ _ | exact Domain.onDemand_enable _ _ _

/-- A reconfigured domain moves soundly, whatever its enable becomes (R77, R90). -/
theorem soundMove.reconfigured (h : domainSound free d) (en run : Bool) (draw settle runDown : Nat)
    {demanded usable : Bool} (hu : usable = true → en = true ∧ free = true) :
    soundMove free d
      ((d.withSettings en run draw settle runDown).reconfigured d.enable demanded usable) := by
  have hset := settingsSound_withSettings d en run draw settle runDown
  have hmach : machineSound (d.withSettings en run draw settle runDown) := h.machine
  unfold Domain.reconfigured
  split
  · rename_i hdis
    have hdis : d.enable = true ∧ en = false := by simpa [Domain.withSettings] using hdis
    split
    · exact ⟨(domainSound.offKept hmach hset (by simp_all)).withDemanded _, (fun hc => by cases hc)⟩
    · exact ⟨(domainSound.offKept hmach hset (by simp_all)).withDemanded _, (fun hc => by cases hc)⟩
    · exact ⟨(domainSound.offKept hmach hset (by simp_all)).withDemanded _, (fun hc => by cases hc)⟩
    · exact ⟨(domainSound.offKept hmach hset (by simp_all)).withDemanded _, (fun hc => by cases hc)⟩
    all_goals
      rename_i hstate
      exact ⟨⟨fun hc => by simp [hstate, DomainState.gateClosed] at hc, fun e => by simp [hstate] at e, hmach, hset⟩,
        fun hc => by simp [hstate, DomainState.gateClosed] at hc⟩
  · split
    · rename_i hen
      have hen : d.enable = false ∧ en = true := by simpa [Domain.withSettings] using hen
      have hnew : domainSound free (d.withSettings en run draw settle runDown) :=
        ⟨fun hc => absurd (h.gate hc).1 (by simp [hen.1]), fun _ => hen.2, hmach, hset⟩
      split
      · exact .of_wakeIf (hnew.withDemanded _) ‹_› hu
      all_goals exact ⟨hnew.withDemanded _, .inl⟩
    · rename_i hne1 hne2
      have hsame : en = d.enable := by
        revert hne1 hne2
        cases hd : d.enable <;> cases en <;> simp [Domain.withSettings]
      have hnew : domainSound free (d.withSettings en run draw settle runDown) :=
        ⟨fun hc => ⟨hsame ▸ (h.gate hc).1, (h.gate hc).2⟩, fun e => hsame ▸ h.faulted e, hmach, hset⟩
      have hmove := soundMove.onDemand (demanded := demanded) hnew hu
      exact ⟨hmove.sound, hmove.entry⟩

/-! #### The end of a handling -/

theorem Dsc.afterEntryFaults_gateFree (before after : Dsc) (trips : DomainSet) (i : Fin 12) :
    (before.afterEntryFaults after trips).gateFree i = after.gateFree i := rfl

theorem Domain.tripped_enable (d : Domain) : d.tripped.enable = d.enable := by
  unfold Domain.tripped
  split <;> rfl

/-- The end of a handling leaves the domains sound where each record is, and where each closed gate either has its trip
input inactive or has just closed, so that an active one opens it again (R86; log 15). -/
theorem domainsSound_settleDomains {d : Dsc} {flags : List Flag} (hheld : s.held = false)
    (hd : ∀ i : Fin 12, domainSound (d.gateFree i) (d.domains[i]'i.2))
    (htrip : ∀ i : Fin 12, (d.domains[i]'i.2).state.gateClosed = true →
      s.inputs.trips.getLsbD i.val = false ∨ ((s.dsc.domains[i]'i.2).state ≠ .waking ∧ (d.domains[i]'i.2).state = .waking))
    (hhost : (d.domains[(0 : Fin 12)]'(Fin.isLt 0)).enable = true) : domainsSound (s.settleDomains d flags) := by
  have hdom : ∀ i : Fin 12, (s.dsc.afterEntryFaults d s.inputs.trips).domains[i]'i.2 =
      if s.dsc.tripsAtEntry d s.inputs.trips i then (d.domains[i]'i.2).tripped else d.domains[i]'i.2 := fun i => by
    simp only [Fin.getElem_fin, Dsc.afterEntryFaults_domains]
  have hwaking : ∀ i : Fin 12, s.dsc.tripsAtEntry d s.inputs.trips i = true →
      (d.domains[i]'i.2).state.gateClosed = true := fun i hi => by
    have hw : (d.domains[i]'i.2).state = .waking := by
      simp only [Dsc.tripsAtEntry, Bool.and_eq_true, beq_iff_eq] at hi
      exact hi.1.2
    rw [hw]
    rfl
  rw [domainsSound_iff]
  refine ⟨fun i => ?_, fun i => ?_, ?_⟩
  · rw [State.settleDomains_dsc, Dsc.afterEntryFaults_gateFree, hdom]
    split
    · exact (hd i).tripped (hwaking i ‹_›)
    · exact hd i
  · rw [State.settleDomains_dsc, State.settleDomains_held, State.settleDomains_inputs, hdom]
    split
    · rw [Domain.tripped_gateClosed]
      intro hc
      cases hc
    · rename_i hno
      intro hc
      refine ⟨hheld, (htrip i hc).elim id fun ⟨hbefore, hafter⟩ => ?_⟩
      rw [Dsc.tripsAtEntry, hafter, bne_iff_ne.mpr hbefore] at hno
      simpa using hno
  · rw [State.settleDomains_dsc, hdom]
    split
    · rwa [Domain.tripped_enable]
    · exact hhost

/-- A handling that moves every domain soundly keeps the law. -/
theorem domainsSound.settle {d : Dsc} {flags : List Flag} (hs : domainsSound s) (hheld : s.held = false)
    (hmove : ∀ i : Fin 12, soundMove (d.gateFree i) (s.dsc.domains[i]'i.2) (d.domains[i]'i.2))
    (hhost : (d.domains[(0 : Fin 12)]'(Fin.isLt 0)).enable = true) : domainsSound (s.settleDomains d flags) := by
  refine domainsSound_settleDomains hheld (fun i => (hmove i).sound) (fun i hc => ?_) hhost
  by_cases hb : (s.dsc.domains[i]'i.2).state.gateClosed = true
  · exact .inl (hs.trip i hb).2
  · refine .inr ⟨fun hw => hb (by rw [hw]; rfl), ?_⟩
    exact ((hmove i).entry hc).resolve_left hb

/-- A handling that moves one domain soundly keeps the law. -/
theorem domainsSound.settle_update {i : Fin 12} {f : Domain → Domain} {flags : List Flag} (hs : domainsSound s)
    (hheld : s.held = false) (hmove : soundMove (s.dsc.gateFree i) (s.dsc.domains[i]'i.2) (f (s.dsc.domains[i]'i.2)))
    (hen : (f (s.dsc.domains[i]'i.2)).enable = (s.dsc.domains[i]'i.2).enable) :
    domainsSound (s.settleDomains (s.dsc.updateDomain i f) flags) := by
  have hsound := (domainsSound_iff.mp hs).1
  have hdom : ∀ j : Fin 12, (s.dsc.updateDomain i f).domains[j]'j.2 =
      if i = j then f (s.dsc.domains[j]'j.2) else s.dsc.domains[j]'j.2 := fun j => by
    simp only [Fin.getElem_fin, Dsc.updateDomain_domains, Fin.ext_iff]
  refine hs.settle hheld (fun j => ?_) ?_
  · rw [hdom]
    split
    · rename_i e
      exact e ▸ hmove
    · exact .refl (hsound j)
  · rw [hdom]
    split
    · rename_i e
      rw [← e, hen, e]
      exact hs.host
    · exact hs.host

/-! #### The handlings of the DSC -/

theorem domainsSound_redemanded {d : Dsc} {flags : List Flag} (hs : domainsSound s) (hheld : s.held = false)
    (hdom : d.domains = s.dsc.domains) (hmaster : d.masterOpen = s.dsc.masterOpen) :
    domainsSound (s.settleDomains d.redemanded flags) := by
  have hfree : ∀ i, d.redemanded.gateFree i = s.dsc.gateFree i := fun i => by
    simp [Dsc.gateFree, Dsc.redemanded, Dsc.mapDomains, hmaster]
  have hnew : ∀ i : Fin 12, d.redemanded.domains[i]'i.2 = (s.dsc.domains[i]'i.2).onDemand (d.isDemanded i) (d.usable i) :=
    fun i => by simp [Dsc.redemanded, hdom]
  have hu : ∀ i, d.usable i = true → (s.dsc.domains[i]'i.2).enable = true ∧ s.dsc.gateFree i = true := fun i h => by
    rw [← hdom]
    simpa [Dsc.gateFree, hmaster] using Dsc.usable_eq_true.mp h
  have hmove : ∀ i : Fin 12, soundMove (s.dsc.gateFree i) (s.dsc.domains[i]'i.2) (d.redemanded.domains[i]'i.2) := fun i =>
    hnew i ▸ soundMove.onDemand ((domainsSound_iff.mp hs).1 i) (hu i)
  refine hs.settle hheld (fun i => hfree i ▸ hmove i) ?_
  rw [hnew, Domain.onDemand_enable]
  exact hs.host

theorem domainsSound_takeTrip {i : Fin 12} {active : Bool} (hs : domainsSound s) (hheld : s.held = false) :
    domainsSound (if active
      then { s with inputs := { s.inputs with trips := tripsAfter s.inputs.trips i active } }.takeTrip i
      else { s with inputs := { s.inputs with trips := tripsAfter s.inputs.trips i active } }) := by
  obtain ⟨hsound, htrip, hhost⟩ := domainsSound_iff.mp hs
  -- but for the domain itself, a closed gate keeps its trip input inactive
  have hother : ∀ j : Fin 12, (s.dsc.domains[j]'j.2).state.gateClosed = true → (j = i → active = false) →
      (tripsAfter s.inputs.trips i active).getLsbD j.val = false := fun j hc hj => by
    rw [tripsAfter_getLsbD]
    split
    · exact hj ‹_›
    · exact (htrip j hc).2
  have hkept : ((s.dsc.domains[i]'i.2).state.gateClosed = true → active = false) →
      domainsSound { s with inputs := { s.inputs with trips := tripsAfter s.inputs.trips i active } } := fun hi =>
    domainsSound_iff.mpr ⟨hsound, fun j hc => ⟨hheld, hother j hc fun e => hi (e ▸ hc)⟩, hhost⟩
  have htripped : (s.dsc.domains[i]'i.2).state.gateClosed = true →
      domainsSound ({ s with inputs := { s.inputs with trips := tripsAfter s.inputs.trips i active } }.settleDomains
        (s.dsc.updateDomain i Domain.tripped) [(s.dsc.domains[i]'i.2).tripFlag]) := fun hi => by
    have hdom : ∀ j : Fin 12, (s.dsc.updateDomain i Domain.tripped).domains[j]'j.2 =
        if i = j then (s.dsc.domains[j]'j.2).tripped else s.dsc.domains[j]'j.2 := fun j => by
      simp only [Fin.getElem_fin, Dsc.updateDomain_domains, Fin.ext_iff]
    refine domainsSound_settleDomains hheld (fun j => ?_) (fun j => ?_) ?_
    · rw [hdom]
      split
      · rename_i e
        exact e ▸ (hsound i).tripped hi
      · exact hsound j
    · rw [hdom]
      split
      · rw [Domain.tripped_gateClosed]
        intro hc
        cases hc
      · rename_i hne
        exact fun hc => .inl (hother j hc fun e => absurd e.symm hne)
    · rw [hdom]
      split
      · rw [Domain.tripped_enable]
        exact hhost
      · exact hhost
  split
  · unfold State.takeTrip
    dsimp only
    split
    case h_1 hi | h_2 hi | h_3 hi => exact htripped (by rw [hi]; rfl)
    all_goals
      rename_i hi
      exact hkept fun hc => by rw [hi] at hc; cases hc
  · exact hkept fun _ => by simpa using ‹¬ active = true›

/-- DOMAIN_CONFIG moves its one domain soundly; it never disables D0 (R76, R90). -/
theorem domainsSound_configure {i : Fin 12} {en run : Bool} {draw settle runDown : Nat} (hs : domainsSound s)
    (hheld : s.held = false) (hhost : ¬ (i.val = 0 ∧ en = false)) :
    domainsSound (s.settleDomains (s.dsc.configure i en run draw settle runDown) []) := by
  have hsound := (domainsSound_iff.mp hs).1
  have hdom : ∀ j : Fin 12, (s.dsc.configure i en run draw settle runDown).domains[j]'j.2 =
      if i = j then
        ((s.dsc.domains[j]'j.2).withSettings en run draw settle runDown).reconfigured (s.dsc.domains[j]'j.2).enable
          ((s.dsc.updateDomain i fun x => x.withSettings en run draw settle runDown).isDemanded i)
          ((s.dsc.updateDomain i fun x => x.withSettings en run draw settle runDown).usable i)
      else s.dsc.domains[j]'j.2 := fun j => by
    by_cases e : i = j
    · subst e
      simp only [Dsc.configure, Fin.getElem_fin, Dsc.updateDomain_domains, ↓reduceIte]
    · have : ¬ i.val = j.val := fun h => e (Fin.ext h)
      simp only [Dsc.configure, Fin.getElem_fin, Dsc.updateDomain_domains, this, e, ↓reduceIte]
  have hu : (s.dsc.updateDomain i fun x => x.withSettings en run draw settle runDown).usable i = true →
      en = true ∧ s.dsc.gateFree i = true := fun h => by
    have h := Dsc.usable_eq_true.mp h
    simp only [Fin.getElem_fin, Dsc.updateDomain_domains, ↓reduceIte] at h
    exact h
  refine hs.settle hheld (fun j => ?_) ?_
  · rw [hdom]
    split
    · rename_i e
      subst e
      exact .reconfigured (hsound _) _ _ _ _ _ hu
    · exact .refl (hsound j)
  · rw [hdom]
    split
    · rename_i e
      have hen : en = true := by
        subst e
        simpa using hhost
      rw [Domain.reconfigured_enable]
      exact hen
    · exact hs.host

theorem domainsSound_clearedFault {i : Fin 12} (hs : domainsSound s) (hheld : s.held = false) :
    domainsSound (s.settleDomains (s.dsc.clearedFault i) []) := by
  have hi := (domainsSound_iff.mp hs).1 i
  refine hs.settle_update hheld ?_ (Domain.wakeIf_enable _ _ _)
  exact .of_wakeIf hi.offCleared rfl fun h => Dsc.usable_eq_true.mp h

theorem domainsSound_closeMaster (hs : domainsSound s) (hheld : s.held = false) :
    domainsSound (s.settleDomains s.dsc.closeMaster []) := by
  have hsound := (domainsSound_iff.mp hs).1
  have hmove : ∀ i : Fin 12, soundMove (s.dsc.closeMaster.gateFree i) (s.dsc.domains[i]'i.2) (s.dsc.closeMaster.domains[i]'i.2) ∧
      (s.dsc.closeMaster.domains[i]'i.2).enable = (s.dsc.domains[i]'i.2).enable := fun i => by
    simp only [Dsc.closeMaster, Fin.getElem_fin, Dsc.mapDomains_domains]
    have hi := hsound i
    simp only [Fin.getElem_fin] at hi
    have hopen : (s.dsc.domains[i.val]'i.2).state.gateClosed = false →
        soundMove ((s.dsc.closeMaster).gateFree i) (s.dsc.domains[i.val]'i.2) (s.dsc.domains[i.val]'i.2) := fun hc =>
      ⟨⟨(by simp [hc]), hi.faulted, hi.machine, hi.settings⟩, .inl⟩
    have hclosed : (s.dsc.domains[i.val]'i.2).state.gateClosed = true →
        soundMove ((s.dsc.closeMaster).gateFree i) (s.dsc.domains[i.val]'i.2)
          (if i.val = 0 then s.dsc.domains[i.val]'i.2 else (s.dsc.domains[i.val]'i.2).offKept)
        ∧ (if i.val = 0 then s.dsc.domains[i.val]'i.2 else (s.dsc.domains[i.val]'i.2).offKept).enable =
          (s.dsc.domains[i.val]'i.2).enable := fun hc => by
      split
      · rename_i h0
        exact ⟨⟨⟨fun _ => ⟨(hi.gate hc).1, by simp [Dsc.gateFree, h0]⟩, hi.faulted, hi.machine, hi.settings⟩, .inl⟩, rfl⟩
      · exact ⟨.of_closed (domainSound.offKept hi.machine hi.settings (not_latched_of_gateClosed hc)) hc, rfl⟩
    split
    case h_1 h | h_2 h | h_3 h => exact hclosed (by rw [h]; rfl)
    case h_4 h | h_5 h | h_6 h => exact ⟨hopen (by rw [h]; rfl), rfl⟩
  exact hs.settle hheld (fun i => (hmove i).1) ((hmove 0).2.trans hs.host)

theorem domainsSound_openMaster (hs : domainsSound s) (hheld : s.held = false) :
    domainsSound (s.settleDomains s.dsc.openMaster []) := by
  have hsound := (domainsSound_iff.mp hs).1
  have hmove : ∀ i : Fin 12, soundMove (s.dsc.openMaster.gateFree i) (s.dsc.domains[i]'i.2) (s.dsc.openMaster.domains[i]'i.2) ∧
      (s.dsc.openMaster.domains[i]'i.2).enable = (s.dsc.domains[i]'i.2).enable := fun i => by
    have hi := hsound i
    have hfree : s.dsc.openMaster.gateFree i = true := by simp [Dsc.gateFree, Dsc.openMaster, Dsc.mapDomains]
    have hsame : domainSound (s.dsc.openMaster.gateFree i) (s.dsc.domains[i]'i.2) :=
      ⟨fun hc => ⟨(hi.gate hc).1, hfree⟩, hi.faulted, hi.machine, hi.settings⟩
    simp only [Fin.getElem_fin] at hsame
    simp only [Dsc.openMaster, Fin.getElem_fin, Dsc.mapDomains_domains]
    split
    · split
      · exact ⟨.refl hsame, rfl⟩
      · exact ⟨.of_wakeIf hsame ‹_› fun h => ⟨(Dsc.usable_eq_true.mp h).1, hfree⟩, Domain.wakeIf_enable _ _ _⟩
    all_goals exact ⟨.refl hsame, rfl⟩
  exact hs.settle hheld (fun i => (hmove i).1) ((hmove 0).2.trans hs.host)

/-- The domains in power-on reset, and right after it: every gate is open. -/
theorem domainsSound_reset (ign : Bool) (h : s.dsc = Dsc.reset ign) : domainsSound s := by
  have hdom : ∀ i : Fin 12, s.dsc.domains[i]'i.2 = Domain.reset := fun i => by
    simp [h, Dsc.reset]
  refine domainsSound_iff.mpr ⟨fun i => ?_, fun i => ?_, ?_⟩
  · rw [hdom]
    exact ⟨(fun hc => by cases hc), (fun e => by cases e), ⟨rfl, Nat.zero_le _⟩, by unfold settingsSound; decide⟩
  · rw [hdom]
    intro hc
    cases hc
  · rw [hdom]
    rfl

/-- A command that does not move the DSC keeps the law of the gates: it is neither a reset nor a report of a trip. -/
theorem domainsSound_kept (c : Instr) (hm : decide (Block.dsc ∈ c.moves) = false) : Keeps domainsSound c := by
  intro s t hs h
  have hm := of_decide_eq_false hm
  refine domainsSound_congr ((exec_kept h).blocks .dsc hm) (exec_held h ?_ ?_) (exec_trips ?_ h) hs
  all_goals
    intros
    rintro rfl
    exact hm (of_decide_eq_true rfl)

theorem exec_domainsSound (c : Instr) : Keeps domainsSound c := by
  cases c
  case powerOnReset | supplyBelowResetThreshold =>
    intro s t hs h
    cases h
    exact domainsSound_reset s.inputs.ign rfl
  case holdDemandReport =>
    intro s t hs h
    change execHoldDemandReport _ _ s = _ at h
    refine arriveReport_keeps domainsSound_blind (fun u hheld hu => ?_) hs h
    dsimp only
    exact domainsSound_redemanded hu hheld rfl rfl
  case runDemandReport =>
    intro s t hs h
    change execRunDemandReport _ s = _ at h
    refine arriveReport_keeps domainsSound_blind (fun u hheld hu => ?_) hs h
    dsimp only
    exact domainsSound_redemanded hu hheld rfl rfl
  case faultReport i active =>
    intro s t hs h
    change execFaultReport _ _ s = _ at h
    unfold execFaultReport at h
    split at h
    · rename_i hheld
      cases h
      refine domainsSound_iff.mpr ⟨(domainsSound_iff.mp hs).1, fun j hc => ?_, hs.host⟩
      exact absurd ((hs.trip j hc).1) (by simp [hheld])
    · refine arrive_keeps domainsSound_blind (fun u hheld hu => ?_) hs h
      dsimp only
      exact domainsSound_takeTrip hu hheld
  case settleExpiry i =>
    intro s t hs h
    change execSettleExpiry _ s = _ at h
    refine arrive_keeps domainsSound_blind (fun u hheld hu => ?_) hs h
    split
    · rename_i hw
      have hc : (u.dsc.domains[i]'i.2).state.gateClosed = true := by rw [hw]; rfl
      have hi := (domainsSound_iff.mp hu).1 i
      refine hu.settle_update hheld (.of_closed ?_ hc) ?_
      · split
        · exact hi.enterOn hc
        · exact hi.runOut hc
      · split
        · rfl
        · exact Domain.runOut_enable _
    · exact hu
  case stabilityExpiry i =>
    intro s t hs h
    change execStabilityExpiry _ s = _ at h
    refine arrive_keeps domainsSound_blind (fun u hheld hu => ?_) hs h
    split
    · rename_i hon
      have hc : (u.dsc.domains[i]'i.2).state.gateClosed = true := by rw [hon.1]; rfl
      have hi := (domainsSound_iff.mp hu).1 i
      refine hu.settle_update hheld (.of_closed ⟨hi.gate, hi.faulted, ?_, hi.settings⟩ hc) rfl
      exact (machineSound_on (d := { u.dsc.domains[i]'i.2 with attempts := 0, timer := none }) hon.1).mpr
        ⟨by simp, Nat.zero_le _⟩
    · exact hu
  case runDownExpiry i =>
    intro s t hs h
    change execRunDownExpiry _ s = _ at h
    refine arrive_keeps domainsSound_blind (fun u hheld hu => ?_) hs h
    split
    · rename_i hd
      exact hu.settle_update hheld (.of_closed ((domainsSound_iff.mp hu).1 i).offCleared (by rw [hd]; rfl)) rfl
    · exact hu
  case backoffExpiry i =>
    intro s t hs h
    change execBackoffExpiry _ s = _ at h
    refine arrive_keeps domainsSound_blind (fun u hheld hu => ?_) hs h
    split
    · rename_i hf
      have hi := (domainsSound_iff.mp hu).1 i
      refine hu.settle_update hheld ?_ ?_
      · split
        · rename_i hw
          obtain ⟨hen, hfree⟩ := Dsc.usable_eq_true.mp (Bool.and_eq_true_iff.mp hw).2
          exact ⟨hi.wake (hi.machine.attempts_le (by rw [hf]; decide)) hen hfree, fun _ => .inr rfl⟩
        · exact ⟨hi.offCleared, fun hc => by cases hc⟩
      · split <;> rfl
    · exact hu
  case domainConfig =>
    intro s t hs h
    change execDomainConfig _ _ _ _ _ _ s = _ at h
    refine portCommand_keeps domainsSound_blind (fun u hheld hu => ?_) hs h
    repeat' split
    · exact hu
    · exact domainsSound_configure hu hheld ‹_›
    · exact hu
  case clearFault =>
    intro s t hs h
    change execClearFault _ s = _ at h
    refine portCommand_keeps domainsSound_blind (fun u hheld hu => ?_) hs h
    split
    · exact hu
    · split
      case h_1 | h_2 =>
        dsimp only
        exact domainsSound_clearedFault hu hheld
      all_goals exact hu
  case master =>
    intro s t hs h
    change execMaster _ s = _ at h
    refine portCommand_keeps domainsSound_blind (fun u hheld hu => ?_) hs h
    split
    · exact hu
    · split
      · exact hu
      · dsimp only
        split
        · exact domainsSound_openMaster hu hheld
        · exact domainsSound_closeMaster hu hheld
  all_goals exact domainsSound_kept _ (Eq.refl false)

/-- A timer runs on through a crystal period, if it ran. -/
theorem ageTimer_isSome (x : Option Nat) : (ageTimer x).isSome = x.isSome := by
  simp [ageTimer]

theorem ageTimer_eq_none {x : Option Nat} : ageTimer x = none ↔ x = none := by
  cases x <;> simp [ageTimer]

theorem machineSound.aged (h : machineSound d) : machineSound { d with timer := ageTimer d.timer } := by
  unfold machineSound at h ⊢
  simp only [ageTimer_isSome, ageTimer_eq_none]
  exact h

/-- All that a crystal period does to the domains: their timers run on. -/
theorem crystalPeriod_domains (hheld : s.held = false) :
    s.crystalPeriod.dsc = { s.dsc with
      domains := Vector.ofFn fun i => { s.dsc.domains[i]'i.2 with timer := ageTimer (s.dsc.domains[i]'i.2).timer } } := by
  unfold State.crystalPeriod State.advancePhase
  rw [if_neg (by simp [hheld])]
  split <;> rfl

theorem crystalPeriod_held (hheld : s.held = true) : s.crystalPeriod = s := if_pos hheld

theorem domainsSound_crystalPeriod (s : State) (hs : domainsSound s) : domainsSound s.crystalPeriod := by
  cases hheld : s.held with
  | true => rwa [crystalPeriod_held hheld]
  | false =>
    obtain ⟨hsound, htrip, hhost⟩ := domainsSound_iff.mp hs
    have hdom : ∀ i : Fin 12, s.crystalPeriod.dsc.domains[i]'i.2 =
        { s.dsc.domains[i]'i.2 with timer := ageTimer (s.dsc.domains[i]'i.2).timer } := fun i => by
      simp [crystalPeriod_domains hheld]
    have hfree : ∀ i : Fin 12, s.crystalPeriod.dsc.gateFree i = s.dsc.gateFree i := fun i => by
      simp [Dsc.gateFree, crystalPeriod_domains hheld]
    refine domainsSound_iff.mpr ⟨fun i => ?_, fun i => ?_, ?_⟩
    · rw [hdom, hfree]
      exact ⟨(hsound i).gate, (hsound i).faulted, (hsound i).machine.aged, (hsound i).settings⟩
    · rw [hdom, (crystalPeriod_frame s).1, (crystalPeriod_frame s).2]
      exact htrip i
    · rw [hdom]
      exact hhost

/-- Settles O13: every handling of the DSC ends in `settleDomains`, and moves each domain soundly into it; the entry
faults there open the gates that closed on an active trip input. -/
theorem gatesCloseOnlyOnUsableDomains : Obligations.GatesCloseOnlyOnUsableDomains :=
  step_keeps (fun _ _ => domainsSound_congr rfl rfl rfl) exec_domainsSound domainsSound_crystalPeriod

end Sys2Proof.Machine

/-! ### What a command can do to a hold (R1 to R4, R18 to R22, R41 to R47, R67, R108 to R113, R145 to R150, R197) -/

namespace Sys2Proof.Machine

variable {s t u v : State}

/-! #### The owner limits (R8) -/

/-- Two tables with the same owner limits. -/
def SameLimits (t u : Htm) : Prop := u = { t with slots := u.slots }

theorem SameLimits.refl (t : Htm) : SameLimits t t := rfl

theorem SameLimits.trans {t u v : Htm} (h : SameLimits t u) (h' : SameLimits u v) : SameLimits t v := by
  unfold SameLimits at h h' ⊢
  rw [h', h]

theorem sameLimits_putHold (t : Htm) (i : Fin 48) (h : Hold) : SameLimits t (t.putHold i h) := rfl

theorem sameLimits_retire (t : Htm) (i : Fin 48) : SameLimits t (t.retire i) := rfl

theorem sameLimits_mapHolds (t : Htm) (f : Hold → Hold) : SameLimits t (t.mapHolds f) := rfl

theorem sameLimits_retireWhere (t : Htm) (p : Hold → Bool) : SameLimits t (t.retireWhere p) := rfl

theorem sameLimits_suspendWhere (t : Htm) (p : Hold → Bool) : SameLimits t (t.suspendWhere p) := rfl

/-- A fold over slots whose steps keep the limits keeps them. -/
theorem sameLimits_foldl {α β : Type} {f : α → β → α} {table : α → Htm} (hf : ∀ a b, SameLimits (table a) (table (f a b)))
    (l : List β) (a : α) : SameLimits (table a) (table (l.foldl f a)) := by
  induction l generalizing a with
  | nil => rfl
  | cons b l ih => exact (hf a b).trans (ih (f a b))

theorem sameLimits_expireSlot (t : Htm) (i : Fin 48) : SameLimits t (t.expireSlot i) := by
  unfold Htm.expireSlot Htm.expire
  repeat' split
  all_goals rfl

theorem sameLimits_afterExpiries (t : Htm) : SameLimits t t.afterExpiries := by
  obtain ⟨all, hall⟩ := exists_allSlots
  rw [Htm.afterExpiries_eq, ← hall]
  exact sameLimits_foldl (table := id) sameLimits_expireSlot all t

theorem sameLimits_resumeSweep (s : State) : SameLimits s.htm s.resumeSweep.1.htm := by
  obtain ⟨all, hall⟩ := exists_allSlots
  rw [State.resumeSweep_eq, ← hall]
  refine sameLimits_foldl (table := fun a : State × List DomainSet => a.1.htm) (fun a i => ?_) all (s, [])
  unfold resumeSlot
  repeat' split
  all_goals rfl

theorem sameLimits_afterStarts (s : State) : SameLimits s.htm s.afterStarts.1.htm := by
  obtain ⟨all, hall⟩ := exists_allSlots
  rw [State.afterStarts_eq, ← hall]
  refine sameLimits_foldl (table := fun a : Starts => a.1.htm) (fun a i => ?_) all (s, [], false)
  unfold startSlot
  repeat' split
  all_goals rfl

theorem sameLimits_addShare (t : Htm) (e : Handle × Nat) : SameLimits t (t.addShare e) := by
  unfold Htm.addShare
  split <;> rfl

/-! #### The reports of hold-demand (R10) -/

/-- A handling hands over at most one report of hold-demand, which gives the set as it leaves it, wherever it changes
the set (R10); and no application. -/
def Reports (u v : State) : Prop :=
  ∃ new, v.inFlight = u.inFlight ++ new ∧ (new = [] ∨ ∃ entered, new = [.holdDemandReport v.htm.demand entered])
    ∧ (new = [] → v.htm.demand = u.htm.demand) ∧ (v.htm.demand = u.htm.demand → new ≠ [.holdDemandReport v.htm.demand []])

theorem reports_settleTable (s : State) (x : Htm) (entered : List DomainSet) (fs : List Flag) :
    Reports s (s.settleTable x entered fs) := by
  have hset : (s.settleTable x entered fs).inFlight = s.inFlight ++
      (if x.demand = s.htm.demand ∧ entered = [] then [] else [.holdDemandReport x.demand entered]) := by
    unfold State.settleTable
    rw [State.inFlight_raise, State.reportDemand_eq]
    exact (List.filter_append ..).trans (congrArg (s.inFlight ++ ·) (apply_ite (List.filter watched) ..))
  refine ⟨_, hset, ?_, ?_, ?_⟩ <;> rw [State.settleTable_htm]
  · split
    · exact .inl rfl
    · exact .inr ⟨entered, rfl⟩
  · split
    · rename_i hsame
      exact fun _ => hsame.1
    · exact fun h => absurd h (List.cons_ne_nil _ _)
  · intro hsame
    split
    · exact (List.cons_ne_nil _ _).symm
    · rename_i hno
      intro he
      exact hno ⟨hsame, by cases he; rfl⟩

/-! #### The moves of a hold -/

/-- What the counting and the expiry of a hold second make of a hold: none where it is retired (R109 to R111). -/
def secondHold (h : Hold) : Option Hold :=
  if isExpired (countHold h) then
    (countHold h).interval.map fun m => (countHold h).waiting (gridCountdown m ((countHold h).sinceStart.getD 0))
  else some (countHold h)

/-- The moves of a hold that stays in its slot, where the effective tier and the floors are those of `tau`. -/
inductive HoldMove (tau : Tau) (h : Hold) : Hold → Prop where
  | kept : HoldMove tau h h
  | renewed (code : Fin 166) (hstate : h.state ≠ .scheduled ∨ 47 ≤ h.owner.val)
      (hcode : (h.interval.isSome = true → code.val ≠ 0) ∨ 47 ≤ h.owner.val) : HoldMove tau h (h.renewed code)
  | recoded (code : Fin 166) (hstate : h.state = .scheduled) (hcode : h.interval.isSome = true → code.val ≠ 0) :
      HoldMove tau h { h with code := code }
  | counted (x : Hold) (hx : secondHold h = some x) (hdue : isDue x = false) : HoldMove tau h x
  | waits (m : Nat) (hexp : isExpired (countHold h) = true) (hm : (countHold h).interval = some m) :
      HoldMove tau h ((countHold h).waiting (gridCountdown m ((countHold h).sinceStart.getD 0)))
  | begins (x : Hold) (hx : secondHold h = some x) (hdue : isDue x = true) (hfloor : tau.floorOk x.cls = true) :
      HoldMove tau h ({ x.begun with charge := 0 } : Hold).activated
  | fails (x : Hold) (hx : secondHold h = some x) (hdue : isDue x = true) :
      HoldMove tau h (({ x.begun with charge := 0 } : Hold).suspendedFor .notAdmitted)
  | resumed (hstate : h.state = .suspended) (hfloor : tau.floorOk h.cls = true) : HoldMove tau h h.activated
  | suspended (hstate : h.state = .active) : HoldMove tau h (h.suspendedFor .tierDrop)
  | charged (charge : Nat) (hle : charge = h.charge ∨ charge ≤ Config.counterMax)
      (hcap : capReached { h with charge := charge } = false) : HoldMove tau h { h with charge := charge }

/-- The arguments of a REQUEST that passes the checks of R17 as R16 normalises them. -/
structure RequestArgs.lawful (a : RequestArgs) : Prop where
  mask : a.mask ≠ 0
  cls : a.cls ≤ 7
  owner : a.owner ≤ 46
  code : a.interval.isSome = true → a.code.val ≠ 0
  delay : ∀ d, a.delay = some d → 32 ≤ a.owner ∧ 1 ≤ d ∧ d ≤ 604800
  interval : ∀ m, a.interval = some m → 32 ≤ a.owner ∧ 1 ≤ m ∧ m ≤ 10080
  cap : ∀ n, a.cap = some n → 32 ≤ a.owner ∧ 1 ≤ n ∧ n ≤ Config.counterMax

/-- The fixed fields of a hold that the TPE's application or the EVU's request creates (R150, R197). -/
def createdBy (c : Instr) (h : Hold) : Prop :=
  (∃ source index x, c = .application source index x ∧ h = templateHold source index x)
    ∨ ∃ code, c = .owner47Request code ∧ h = hostHold code

/-- The holds that a command creates. -/
inductive HoldMade (c : Instr) (tau : Tau) : Hold → Prop where
  | requested (a : RequestArgs) (ha : a.lawful) (hfloor : a.delay = none → tau.floorOk (Fin.ofNat 8 a.cls) = true) :
      HoldMade c tau a.hold
  | admitted (h : Hold) (hc : createdBy c h) (hfloor : tau.floorOk h.cls = true) : HoldMade c tau h.begun.activated
  | refused (h : Hold) (hc : createdBy c h) : HoldMade c tau (h.begun.suspendedFor .notAdmitted)

/-- Every hold of the table after has moved from the hold of its slot before, but for the one that was made. -/
def TableMove (tau : Tau) (made : Option (Fin 48 × Hold)) (t u : Htm) : Prop :=
  ∀ i : Fin 48, ∀ h', (u.slots[i]'i.2).hold = some h' →
    (∃ h, (t.slots[i]'i.2).hold = some h ∧ HoldMove tau h h') ∨ made = some (i, h')

/-- What a command can do to the holds: they move, and it makes at most one, of owner 47 only where there is none. -/
def HoldsMove (c : Instr) (s t : State) : Prop :=
  ∃ made, TableMove t.tau made s.htm t.htm
    ∧ ∀ i h, made = some (i, h) → HoldMade c t.tau h
      ∧ (h.owner = 47 → ∀ j : Fin 48, ∀ g, (s.htm.slots[j]'j.2).hold = some g → g.owner ≠ 47)

variable {c : Instr} {tau : Tau} {made : Option (Fin 48 × Hold)}

theorem TableMove.refl (t : Htm) : TableMove tau made t t := fun _ h' hh => .inl ⟨h', hh, .kept⟩

theorem TableMove.holdsMove (h : TableMove t.tau none s.htm t.htm) : HoldsMove c s t :=
  ⟨none, h, fun _ _ e => by cases e⟩

theorem holdsMove_of_same (h : t.htm = s.htm) : HoldsMove c s t := TableMove.holdsMove (h ▸ .refl _)

/-- A handling that leaves the ACTIVE holds as they were, and hands nothing over that is watched, needs no report. -/
theorem Reports.of_same (hdemand : t.htm.demand = s.htm.demand) (hq : t.inFlight = s.inFlight) : Reports s t :=
  ⟨[], hq.trans (List.append_nil _).symm, .inl rfl, fun _ => hdemand, fun _ => (List.cons_ne_nil _ _).symm⟩

/-- What a command does to the table: its holds move, the limits are kept, and the demand is reported. -/
structure TableStep (c : Instr) (s t : State) : Prop where
  holds : HoldsMove c s t
  limits : (∀ network control source, c ≠ .limits network control source) → SameLimits s.htm t.htm
  reports : Reports s t

theorem TableStep.of_same (hhtm : t.htm = s.htm) (hq : t.inFlight = s.inFlight) : TableStep c s t :=
  ⟨holdsMove_of_same hhtm, fun _ => hhtm ▸ .refl _, .of_same (congrArg Htm.demand hhtm) hq⟩

theorem TableStep.refl (c : Instr) (s : State) : TableStep c s s := .of_same rfl rfl

/-- Before, the states differ outside the table and what is watched. -/
theorem TableStep.after (h : TableStep c u t) (hhtm : u.htm = s.htm) (hq : u.inFlight = s.inFlight) :
    TableStep c s t := by
  obtain ⟨⟨made, hmove, hmade⟩, hlimits, new, hnew, hform, hnone, hsame⟩ := h
  rw [hhtm] at hmove hmade hlimits hnone hsame
  rw [hq] at hnew
  exact ⟨⟨made, hmove, hmade⟩, hlimits, new, hnew, hform, hnone, hsame⟩

theorem TableStep.hand (h : TableStep c s t) {x : Instr} (hx : watched x = false) : TableStep c s (t.hand x) := by
  obtain ⟨new, hnew, hrest⟩ := h.reports
  exact ⟨h.holds, h.limits, new, (State.inFlight_hand hx t).trans hnew, hrest⟩

/-- The table is settled after its holds have moved. -/
theorem TableStep.of_move {x : Htm} {e : List DomainSet} {fs : List Flag} (h : TableMove s.tau none s.htm x)
    (hl : SameLimits s.htm x) : TableStep c s (s.settleTable x e fs) :=
  ⟨TableMove.holdsMove (by rw [State.settleTable_tau, State.settleTable_htm]; exact h),
    fun _ => by rw [State.settleTable_htm]; exact hl, reports_settleTable s x e fs⟩

theorem tableMove_retire (t : Htm) (i : Fin 48) : TableMove tau made t (t.retire i) := by
  intro j h' hh
  rw [Htm.retire_slot] at hh
  split at hh
  · cases hh
  · exact .inl ⟨h', hh, .kept⟩

theorem tableMove_retireWhere (t : Htm) (p : Hold → Bool) : TableMove tau made t (t.retireWhere p) := by
  intro j h' hh
  rw [Htm.retireWhere_slot, retiredSlot] at hh
  split at hh
  · split at hh
    · cases hh
    · exact .inl ⟨h', hh, .kept⟩
  · exact .inl ⟨h', hh, .kept⟩

/-- One hold moves in its slot. -/
theorem tableMove_putHold {t : Htm} {i : Fin 48} {h h' : Hold} (hi : (t.slots[i]'i.2).hold = some h)
    (hmove : HoldMove tau h h') : TableMove tau made t (t.putHold i h') := by
  intro j g hg
  rw [Htm.putHold_slot] at hg
  split at hg
  · rename_i e
    cases hg
    exact .inl ⟨h, e ▸ hi, hmove⟩
  · exact .inl ⟨g, hg, .kept⟩

/-- One hold moves in its slot and keeps its state. -/
theorem TableStep.of_putHold {i : Fin 48} {h h' : Hold} (hi : (s.htm.slots[i]'i.2).hold = some h) (hmove : HoldMove s.tau h h')
    (hstate : h'.state = h.state) (hmask : h'.mask = h.mask) : TableStep c s (s.withHtm (s.htm.putHold i h')) := by
  refine ⟨TableMove.holdsMove (tableMove_putHold hi hmove), fun _ => rfl, .of_same (Htm.demand_congr fun j => ?_) rfl⟩
  show ((s.htm.putHold i h').slots[j]'j.2).activeMask = _
  rw [Htm.putHold_slot]
  split
  · rename_i e
    subst e
    simp only [Slot.activeMask, hi, hstate, hmask]
  · rfl

/-- One hold is made in a slot. -/
theorem tableMove_made (t : Htm) (i : Fin 48) (h : Hold) : TableMove tau (some (i, h)) t (t.putHold i h) := by
  intro j g hg
  rw [Htm.putHold_slot] at hg
  split at hg
  · rename_i e
    cases hg
    exact .inr (by rw [e])
  · exact .inl ⟨g, hg, .kept⟩

theorem tableMove_suspendWhere (t : Htm) (p : Hold → Bool) : TableMove tau made t (t.suspendWhere p) := by
  intro j h' hh
  rw [Htm.suspendWhere, Htm.mapHolds_slot] at hh
  obtain ⟨h, hj, rfl⟩ := Option.map_eq_some_iff.mp hh
  refine .inl ⟨h, hj, ?_⟩
  split
  · rename_i hp
    rw [Bool.and_eq_true, decide_eq_true_eq] at hp
    exact .suspended hp.1
  · exact .kept

theorem tableMove_resumeSweep (s : State) : TableMove s.tau made s.htm s.resumeSweep.1.htm := by
  intro i h' hh
  obtain ⟨x, -, -, hown⟩ := resumeSweep_turn s i
  rw [hown, resumedSlot] at hh
  split at hh
  · rename_i h hi
    split at hh
    · rename_i hr
      rw [Bool.and_eq_true, Bool.and_eq_true, decide_eq_true_eq] at hr
      cases hh
      exact .inl ⟨h, hi, .resumed hr.1.1 hr.1.2⟩
    · exact .inl ⟨h', hh, .kept⟩
  · exact .inl ⟨h', hh, .kept⟩

/-! #### The rows -/

theorem floorOk_of_createdHold {h : Hold} :
    (s.createdHold h = h.begun.activated ∧ s.tau.floorOk h.cls = true)
      ∨ s.createdHold h = h.begun.suspendedFor .notAdmitted := by
  unfold State.createdHold
  split
  · exact .inl ⟨rfl, State.floorOk_of_admits ‹_›⟩
  · exact .inr rfl

theorem holdMade_createdHold {h : Hold} (hc : createdBy c h) : HoldMade c s.tau (s.createdHold h) := by
  rcases floorOk_of_createdHold (s := s) (h := h) with ⟨e, hf⟩ | e
  · exact e ▸ .admitted h hc hf
  · exact e ▸ .refused h hc

theorem State.createdHold_owner (s : State) (h : Hold) : (s.createdHold h).owner = h.owner := by
  unfold State.createdHold
  split <;> rfl

/-- The room for a creation is a slot of the table as it stands, or of one hold less. -/
theorem Htm.makeRoom_cases {t u : Htm} {i : Fin 48} {evicted : Bool} (h : t.makeRoom = some (u, i, evicted)) :
    (t.firstFree = some i ∧ u = t ∧ evicted = false)
      ∨ (t.firstFree = none ∧ t.victim = some i ∧ u = t.retire i ∧ evicted = true) := by
  unfold Htm.makeRoom at h
  split at h
  · cases h
    exact .inl ⟨‹_›, rfl, rfl⟩
  · split at h
    · cases h
      exact .inr ⟨‹_›, ‹_›, rfl, rfl⟩
    · cases h

theorem tableStep_createEvicting {h : Hold} (hc : createdBy c h)
    (hhost : h.owner = 47 → ∀ j : Fin 48, ∀ g, (s.htm.slots[j]'j.2).hold = some g → g.owner ≠ 47)
    (e : s.createEvicting h = some t) : TableStep c s t := by
  unfold State.createEvicting at e
  split at e
  · cases e
  · rename_i u i evicted hroom
    cases e
    have hu : TableMove s.tau (some (i, s.createdHold h)) s.htm u ∧ SameLimits s.htm u := by
      rcases Htm.makeRoom_cases hroom with ⟨-, rfl, -⟩ | ⟨-, -, rfl, -⟩
      · exact ⟨.refl _, .refl _⟩
      · exact ⟨tableMove_retire _ _, sameLimits_retire _ _⟩
    refine ⟨⟨some (i, s.createdHold h), ?_, fun _ _ e => ?_⟩, fun _ => ?_, reports_settleTable _ _ _ _⟩
    · rw [State.settleTable_htm, State.settleTable_tau]
      intro j g hg
      rw [Htm.putHold_slot] at hg
      split at hg
      · rename_i e
        cases hg
        exact .inr (by rw [e])
      · exact hu.1 j g hg
    · cases e
      rw [State.settleTable_tau, State.createdHold_owner]
      exact ⟨holdMade_createdHold hc, hhost⟩
    · rw [State.settleTable_htm]
      exact hu.2.trans (sameLimits_putHold _ _ _)

section
variable {a : RequestArgs} {lo hi : Nat}

/-- Arguments that R17 does not accept. -/
def RequestArgs.bad (a : RequestArgs) (lo hi : Nat) : Prop :=
  a.mask = 0 ∨ 7 < a.cls ∨ a.owner < lo ∨ hi < a.owner ∨ (a.interval.isSome = true ∧ a.code.val = 0)

theorem checkRequest_of_bad (h : a.bad lo hi) : s.checkRequest lo hi a = .error .arg := by
  unfold State.checkRequest
  split
  · rfl
  · split
    · rfl
    · split
      · rfl
      · rename_i hmask hcls howner
        refine if_pos ?_
        rcases h with h | h | h | h | h
        · exact absurd h hmask
        · exact absurd h hcls
        · exact absurd (.inl h) howner
        · exact absurd (.inr h) howner
        · exact h

theorem checkRequest_of_good (h : ¬ a.bad lo hi) :
    s.checkRequest lo hi a =
      if s.htm.ownerLimit (Fin.ofNat 64 a.owner) ≤ s.htm.ownerCount (Fin.ofNat 64 a.owner) then .error .ownerLimit
      else match s.htm.firstFree with
        | none => .error .full
        | some i =>
          if a.delay.isNone ∧ s.admits none (Fin.ofNat 8 a.cls) a.mask a.code = false then .error .denied
          else .ok i := by
  simp only [RequestArgs.bad, not_or] at h
  obtain ⟨hmask, hcls, hlo, hhi, hcode⟩ := h
  unfold State.checkRequest
  rw [if_neg hmask, if_neg hcls, if_neg (not_or.mpr ⟨hlo, hhi⟩), if_neg hcode] <;> rfl

end

theorem checkRequest_ok {lo hi : Nat} {a : RequestArgs} {i : Fin 48} (h : s.checkRequest lo hi a = .ok i) :
    ¬ a.bad lo hi ∧ (a.delay = none → s.tau.floorOk (Fin.ofNat 8 a.cls) = true) := by
  have hgood : ¬ a.bad lo hi := fun hb => by
    rw [checkRequest_of_bad hb] at h
    cases h
  refine ⟨hgood, fun hd => ?_⟩
  rw [checkRequest_of_good hgood] at h
  split at h
  · cases h
  · split at h
    · cases h
    · split at h
      · cases h
      · rename_i hadm
        refine State.floorOk_of_admits (own := none) (mask := a.mask) (code := a.code) ?_
        exact Bool.eq_true_of_not_eq_false fun hno => hadm ⟨by rw [hd]; rfl, hno⟩

/-- Arguments that pass are lawful where the optional fields are within their bounds. -/
theorem RequestArgs.lawful_of_good {lo hi : Nat} {a : RequestArgs} (h : ¬ a.bad lo hi) (hhi : hi ≤ 46)
    (hdelay : ∀ d, a.delay = some d → 32 ≤ lo ∧ 1 ≤ d ∧ d ≤ 604800)
    (hinterval : ∀ m, a.interval = some m → 32 ≤ lo ∧ 1 ≤ m ∧ m ≤ 10080)
    (hcap : ∀ n, a.cap = some n → 32 ≤ lo ∧ 1 ≤ n ∧ n ≤ Config.counterMax) : a.lawful := by
  simp only [RequestArgs.bad, not_or, not_lt] at h
  obtain ⟨hmask, hcls, hlo, howner, hcode⟩ := h
  exact ⟨hmask, hcls, howner.trans hhi, fun hi h0 => hcode ⟨hi, h0⟩, fun d e => (hdelay d e).imp_left (·.trans hlo),
    fun m e => (hinterval m e).imp_left (·.trans hlo), fun n e => (hcap n e).imp_left (·.trans hlo)⟩

theorem presentOf_bounds {n k : Nat} (h : presentOf n = some k) : 1 ≤ k ∧ k ≤ n := by
  unfold presentOf at h
  split at h
  · cases h
  · cases h
    exact ⟨Nat.one_le_iff_ne_zero.mpr ‹_›, Nat.le_refl n⟩

theorem RequestArgs.hold_owner (a : RequestArgs) : a.hold.owner = Fin.ofNat 64 a.owner := by
  unfold RequestArgs.hold
  cases a.delay <;> rfl

theorem tableStep_takeRequest {lo hi : Nat} {a : RequestArgs}
    (ha : ∀ i, s.checkRequest lo hi a = .ok i → a.lawful) : TableStep c s (s.takeRequest lo hi a).1 := by
  unfold State.takeRequest
  cases hcheck : s.checkRequest lo hi a with
  | error st => exact .refl _ _
  | ok i =>
    have hlaw := ha i hcheck
    refine ⟨⟨some (i, a.hold), ?_, fun _ _ e => ?_⟩, fun _ => ?_, reports_settleTable _ _ _ _⟩
    · rw [State.settleTable_htm]
      exact tableMove_made _ _ _
    · cases e
      rw [State.settleTable_tau]
      refine ⟨.requested a hlaw (checkRequest_ok hcheck).2, fun howner => ?_⟩
      have hval : a.owner % 64 = 47 := congrArg Fin.val ((RequestArgs.hold_owner a).symm.trans howner)
      have hle := hlaw.owner
      omega
    · rw [State.settleTable_htm]
      exact sameLimits_putHold _ _ _

theorem lawful_requestArgs {owner cls code : Byte} {mask interval : BitVec 16} {delay cap : BitVec 32} {i : Fin 48}
    (h : s.checkRequest 32 46 (requestArgs owner mask cls code delay interval cap) = .ok i) :
    (requestArgs owner mask cls code delay interval cap).lawful := by
  refine RequestArgs.lawful_of_good (checkRequest_ok h).1 (Nat.le_refl _) (fun d hd => ⟨Nat.le_refl _, ?_⟩)
    (fun m hm => ⟨Nat.le_refl _, ?_⟩) (fun n hn => ⟨Nat.le_refl _, ?_⟩)
  · exact (presentOf_bounds hd).imp_right (·.trans (Nat.min_le_right _ _))
  · exact (presentOf_bounds hm).imp_right (·.trans (Nat.min_le_right _ _))
  · exact (presentOf_bounds hn).imp_right (·.trans (Nat.le_of_lt_succ cap.isLt))

theorem lawful_netRequestArgs {node cls code : Byte} {mask : DomainSet} {i : Fin 48}
    (h : s.checkRequest 0 31 (netRequestArgs node mask cls code) = .ok i) :
    (netRequestArgs node mask cls code).lawful :=
  RequestArgs.lawful_of_good (checkRequest_ok h).1 (of_decide_eq_true rfl) (fun _ e => by cases e) (fun _ e => by cases e)
    fun _ e => by cases e

theorem tableStep_takeRenew (node : Option Byte) (h : Handle) (code : Fin 166) :
    TableStep c s (s.takeRenew node h code).1 := by
  unfold State.takeRenew
  cases hauth : s.authorised node h with
  | error st => exact .refl _ _
  | ok e =>
    obtain ⟨i, x⟩ := e
    obtain ⟨-, hi, -⟩ := Htm.resolve_eq_ok.mp (State.resolve_of_authorised hauth)
    dsimp only
    split
    · exact .refl _ _
    · rename_i hno
      have hcode : x.interval.isSome = true → code.val ≠ 0 := fun h1 h2 => hno ⟨h1, h2⟩
      split
      · rename_i hs
        split
        · exact .of_putHold hi (.renewed code (.inl fun e => by cases hs.symm.trans e) (.inl hcode)) rfl rfl
        · exact .refl _ _
      · rename_i hs
        exact .of_putHold hi (.renewed code (.inl fun e => by cases hs.symm.trans e) (.inl hcode)) rfl rfl
      · rename_i hs
        exact .of_putHold hi (.recoded code hs hcode) rfl rfl

theorem tableStep_takeRelease (node : Option Byte) (h : Handle) : TableStep c s (s.takeRelease node h).1 := by
  rcases s.takeRelease_cases node h with ⟨st, e⟩ | ⟨i, x, -, e⟩ <;> rw [e]
  · exact .refl _ _
  · dsimp only
    exact .of_move (tableMove_retire _ _) (sameLimits_retire _ _)

/-! A hold second, and its three parts as rows of their own -/

theorem secondHold_of_not_expired {h : Hold} (hx : isExpired (countHold h) = false) :
    secondHold h = some (countHold h) := by
  simp [secondHold, hx]

theorem expiredSlot_hold (sl : Slot) :
    (expiredSlot { sl with hold := sl.hold.map countHold }).hold = sl.hold.bind secondHold := by
  unfold expiredSlot secondHold
  cases sl.hold with
  | none => rfl
  | some h =>
    dsimp only [Option.map_some, Option.bind_some]
    split
    · cases (countHold h).interval <;> rfl
    · rfl

theorem startHold_cases (s : State) (i : Fin 48) (x : Hold) :
    (s.startHold i x = ({ x.begun with charge := 0 } : Hold).activated ∧ s.tau.floorOk x.cls = true)
      ∨ s.startHold i x = ({ x.begun with charge := 0 } : Hold).suspendedFor .notAdmitted := by
  unfold State.startHold
  dsimp only
  split
  · exact .inl ⟨rfl, State.floorOk_of_admits ‹_›⟩
  · exact .inr rfl

theorem holdMove_startHold {h x : Hold} {i : Fin 48} (htau : s.tau = tau) (hx : secondHold h = some x)
    (hdue : isDue x = true) : HoldMove tau h (s.startHold i x) := by
  subst htau
  rcases startHold_cases s i x with ⟨e, hf⟩ | e
  · exact e ▸ .begins x hx hdue hf
  · exact e ▸ .fails x hx hdue

/-- The hold that a hold second leaves in a slot has moved from the one it found there. -/
theorem tableMove_holdSecond (s : State) :
    TableMove s.tau made s.htm (s.withHtm (s.htm.mapHolds countHold).afterExpiries).afterStarts.1.htm := by
  intro i h' hh
  have hsecond : ((s.htm.mapHolds countHold).afterExpiries.slots[i]).hold = (s.htm.slots[i]'i.2).hold.bind secondHold := by
    rw [Htm.afterExpiries_slots, Htm.mapHolds_slot, expiredSlot_hold]
  generalize (s.htm.mapHolds countHold).afterExpiries = u at hh hsecond
  obtain ⟨x, -, -, hown⟩ := (s.withHtm u).afterStarts_turn i
  rw [hown, State.withHtm_htm, startedSlot] at hh
  split at hh
  · rename_i y hy
    rw [hsecond] at hy
    obtain ⟨h, hi, hy⟩ := Option.bind_eq_some_iff.mp hy
    split at hh
    · cases hh
      exact .inl ⟨h, hi, holdMove_startHold rfl hy ‹_›⟩
    · rename_i hy' hdue
      rw [hsecond, hy'] at hh
      cases hh
      exact .inl ⟨h, hi, .counted _ hy (by simpa using hdue)⟩
  · rename_i hy
    rw [hy] at hh
    cases hh

theorem tableMove_expire {h : Hold} {i : Fin 48} (hi : (s.htm.slots[i]'i.2).hold = some h)
    (hexp : isExpired (countHold h) = true) : TableMove tau made s.htm (s.htm.expire i (countHold h)) := by
  unfold Htm.expire
  split
  · exact tableMove_retire _ _
  · rename_i m hm
    exact tableMove_putHold hi (.waits m hexp hm)

theorem not_isExpired_of_isDue {h : Hold} (h1 : isDue h = true) : isExpired h = false := by
  simp only [isDue, Bool.and_eq_true, beq_iff_eq] at h1
  simp [isExpired, h1.1]

/-! An attribution (R67, R68) -/

/-- A slot whose hold, if any, has another charge within the counter. -/
def Recharged (sl sl' : Slot) : Prop :=
  sl' = sl ∨ ∃ h charge, sl.hold = some h ∧ charge ≤ Config.counterMax
    ∧ sl' = { sl with hold := some { h with charge := charge } }

theorem Recharged.trans {sl sl' sl'' : Slot} (h : Recharged sl sl') (h' : Recharged sl' sl'') : Recharged sl sl'' := by
  rcases h with rfl | ⟨x, charge, hx, hle, rfl⟩
  · exact h'
  · rcases h' with rfl | ⟨y, charge', hy, hle', rfl⟩
    · exact .inr ⟨x, charge, hx, hle, rfl⟩
    · cases hy
      exact .inr ⟨x, charge', hx, hle', rfl⟩

theorem recharged_addShare (t : Htm) (e : Handle × Nat) (i : Fin 48) : Recharged (t.slots[i]'i.2) ((t.addShare e).slots[i]'i.2) := by
  unfold Htm.addShare
  cases hr : t.resolve e.1 with
  | error st => exact .inl rfl
  | ok x =>
    obtain ⟨j, h⟩ := x
    obtain ⟨-, hj, -⟩ := Htm.resolve_eq_ok.mp hr
    dsimp only
    rw [Htm.putHold_slot]
    split
    · rename_i eji
      exact .inr ⟨h, _, eji ▸ hj, satAdd_le _ _, rfl⟩
    · exact .inl rfl

/-- The charge of each hold is its own, or one that a share has raised. -/
theorem recharged_foldl_addShare (shares : List (Handle × Nat)) (t : Htm) (i : Fin 48) :
    Recharged (t.slots[i]'i.2) ((shares.foldl Htm.addShare t).slots[i]'i.2) := by
  induction shares generalizing t with
  | nil => exact .inl rfl
  | cons e shares ih => exact (recharged_addShare t e i).trans (ih (t.addShare e))

theorem tableMove_attribution (shares : List (Handle × Nat)) (t : Htm) :
    TableMove tau made t ((shares.foldl Htm.addShare t).retireWhere capReached) := by
  intro i x hx
  rw [Htm.retireWhere_slot, retiredSlot] at hx
  split at hx
  · rename_i y hy
    split at hx
    · cases hx
    · rename_i hcap
      rw [hy] at hx
      cases hx
      refine .inl ?_
      rcases recharged_foldl_addShare shares t i with e | ⟨h, charge, hh, hle, e⟩ <;> rw [e] at hy
      · exact ⟨x, hy, .kept⟩
      · cases hy
        exact ⟨h, hh, .charged charge (.inr hle) (Bool.eq_false_of_not_eq_true hcap)⟩
  · rename_i hnone
    rw [hnone] at hx
    cases hx

/-! Applications and the owner-47 request -/

theorem tableStep_coalesce {i : Fin 48} {source index : Fin 16} {code : Fin 166}
    (hi : s.htm.coalesceSlot source index = some i) : TableStep c s (s.withHtm (s.htm.coalesce i code)) := by
  obtain ⟨⟨h, hh, hp⟩, -⟩ := Htm.firstWhere_eq_some.mp hi
  have howner : 47 ≤ h.owner.val := by
    rw [Bool.and_eq_true, decide_eq_true_eq] at hp
    have := congrArg Fin.val hp.1
    simp only [sourceOwner] at this
    omega
  unfold Htm.coalesce
  split
  · rename_i g hg
    cases hh.symm.trans hg
    exact .of_putHold hh (.renewed code (.inr howner) (.inr howner)) rfl rfl
  · exact .refl _ _

theorem tableStep_renewHost {i : Fin 48} {code : Fin 166}
    (hi : (s.htm.firstWhere fun h => h.owner = 47) = some i) : TableStep c s (s.withHtm (s.htm.renewHost i code)) := by
  obtain ⟨⟨h, hh, hp⟩, -⟩ := Htm.firstWhere_eq_some.mp hi
  have howner : 47 ≤ h.owner.val := Nat.le_of_eq (congrArg Fin.val (of_decide_eq_true hp)).symm
  unfold Htm.renewHost
  split
  · rename_i g hg
    cases hh.symm.trans hg
    split
    · exact .of_putHold hh (.renewed code (.inr howner) (.inr howner)) rfl rfl
    · exact .refl _ _
  · exact .refl _ _

theorem tableStep_apply (source index : Fin 16) (x : Template) :
    TableStep (.application source index x) s (s.apply source index x).1 := by
  unfold State.apply
  split
  · rename_i i hi
    split at hi
    · exact tableStep_coalesce hi
    · cases hi
  · unfold State.applyNew
    split
    · exact .refl _ _
    · split
      · exact .refl _ _
      · refine tableStep_createEvicting (.inl ⟨source, index, x, rfl, rfl⟩) (fun howner => ?_) ‹_›
        have := congrArg Fin.val howner
        simp only [templateHold, Hold.fresh, sourceOwner] at this
        omega

theorem tableStep_sweepUp (fs : List Flag) : TableStep c s (s.sweepUp fs) :=
  .of_move (tableMove_resumeSweep s) (sameLimits_resumeSweep s)

theorem tableStep_suspend (p : Hold → Bool) (fs : List Flag) :
    TableStep c s (s.settleTable (s.htm.suspendWhere p) [] fs) :=
  .of_move (tableMove_suspendWhere _ _) (sameLimits_suspendWhere _ _)

theorem tableStep_tierReport (s : State) (r : Tau) (run : Bool) : TableStep c s (s.tierReport r run) := by
  have hrecord : ∀ t, TableStep c { s with tau := { r with effective := r.formed } } t → TableStep c s t :=
    fun t h => h.after rfl rfl
  unfold State.tierReport State.sweepDown
  dsimp only
  split
  · exact hrecord _ (tableStep_suspend _ _)
  · split
    · exact hrecord _ (tableStep_sweepUp _)
    · split
      · exact hrecord _ (tableStep_sweepUp _)
      · exact hrecord _ (.refl _ _)

theorem tableStep_applyFloor (s : State) (k : Fin 8) (old new : Tier) : TableStep c s (s.applyFloor k old new) := by
  unfold State.applyFloor
  split
  · split
    · exact tableStep_suspend _ _
    · exact .refl _ _
  · split
    · exact tableStep_sweepUp _
    · exact .refl _ _

end Sys2Proof.Machine

/-! ### The rows: what a command does to the table and hands over of what is watched (R10, R144) -/

namespace Sys2Proof.Machine

variable {c : Instr} {s t u v : State}

/-! #### What is watched, and taken out of what is in flight -/

theorem filter_erase_of_not {α : Type} [DecidableEq α] {p : α → Bool} {a : α} (ha : p a = false) (l : List α) :
    (l.erase a).filter p = l.filter p := by
  induction l with
  | nil => rfl
  | cons b l ih =>
    by_cases hb : b = a
    · subst hb
      rw [List.erase_cons_head, List.filter_cons_of_neg (Bool.eq_false_iff.mp ha)]
    · rw [List.erase_cons_tail (by simpa using hb), List.filter_cons, List.filter_cons, ih]

theorem filter_diff_replicate_of_not {α : Type} [DecidableEq α] {p : α → Bool} {a : α} (ha : p a = false) (n : Nat)
    (l : List α) : (l.diff (List.replicate n a)).filter p = l.filter p := by
  induction n generalizing l with
  | zero => rfl
  | succ n ih => rw [List.replicate_succ, List.diff_cons, ih, filter_erase_of_not ha]

theorem State.inFlight_take (hc : watched c = false) (s : State) : (s.take c).inFlight = s.inFlight :=
  filter_erase_of_not hc s.handed

theorem State.inFlight_takeEnded (s : State) (serial : Option Nat) : (s.takeEnded serial).inFlight = s.inFlight := by
  unfold State.takeEnded
  split
  · exact ((onlyBlocks_setFlags _ _).quiet (of_decide_eq_false rfl)).trans
      (filter_diff_replicate_of_not (p := watched) rfl _ _)
  · rfl

theorem State.inFlight_abortByClear (s : State) (serial : Option Nat) :
    (s.abortByClear serial).inFlight = s.inFlight := by
  rw [State.abortByClear_eq]
  exact (onlyBlocks_abortCalibration s).quiet (of_decide_eq_false rfl)

/-! #### The rows that do not move the table -/

/-- What a command but the two of the supply and HAND_OVER does to the table. -/
def TableRow (c : Instr) : Prop :=
  ∀ s t, s.held = false → c ≠ .powerOnReset → c ≠ .supplyBelowResetThreshold → (∀ i j, c ≠ .handOver i j) →
    (∀ demand entered, c = .holdDemandReport demand entered → TakesReport c s) → exec c s = .next t →
    TableStep c (s.take c) t

theorem TableStep.of_frame {bs : List Block} (hm : Block.htm ∉ bs) (h : OnlyBlocks bs s t) : TableStep c s t :=
  .of_same (h.blocks .htm hm) (h.quiet hm)

theorem tableStep_ofPort {g : State → State × Reply} (hc : watched c = false) (hg : ∀ u, TableStep c u (g u).1)
    (h : portCommand c s g = .next t) : TableStep c (s.take c) t := by
  have hq : s.inFlight = (s.take c).inFlight := (State.inFlight_take hc s).symm
  rcases portCommand_eq_next h with ⟨-, rfl⟩ | ⟨-, -, rfl⟩ | ⟨n, s1, htake, rfl⟩
  · exact .of_same rfl hq
  · obtain ⟨p, csn, e⟩ := portLeft_eq_withPort c s
    rw [e]
    exact .of_same rfl hq
  · obtain ⟨p, csn, rfl⟩ := portTake_eq_withPort htake.2
    exact TableStep.hand (TableStep.after (s := s.take c) (u := s.withPort p csn) (hg _) rfl hq) (x := .blockResult ..) rfl

theorem tableStep_ofArrive {f : State → State} (hheld : s.held = false) (hf : ∀ u, TableStep c u (f u))
    (h : arrive c s f = .next t) : TableStep c (s.take c) t := by
  rw [arrive_next hheld] at h
  cases h
  exact hf _

theorem tableStep_ofReport {f : State → State} (hheld : s.held = false) (hc : watched c = false ∨ TakesReport c s)
    (hf : ∀ u, TableStep c u (f u)) (h : arriveReport c s f = .next t) : TableStep c (s.take c) t := by
  rcases arriveReport_eq_next h with ⟨hh, -⟩ | ⟨-, rfl⟩ | ⟨-, hno, hleft⟩
  · exact Bool.noConfusion (hheld.symm.trans hh)
  · exact hf _
  · have hc : watched c = false := hc.resolve_right fun ht => Bool.noConfusion (ht.2.symm.trans hno)
    have hq : TableStep c (s.take c) s := .of_same rfl (State.inFlight_take hc s).symm
    rcases hleft with ⟨-, rfl⟩ | ⟨-, rfl⟩
    · exact hq
    · exact hq.hand hc

theorem tableStep_ofPart {f : State → State} (hc : watched c = false)
    (hf : ∀ u, (f u).htm = u.htm ∧ (f u).inFlight = u.inFlight) (h : portPart c s f = .next t) :
    TableStep c (s.take c) t := by
  have hq : s.inFlight = (s.take c).inFlight := (State.inFlight_take hc s).symm
  rcases portPart_eq_next h with ⟨-, rfl⟩ | ⟨-, -, rfl⟩ | ⟨s1, htake, rfl⟩
  · exact .of_same rfl hq
  · exact .of_same rfl hq
  · obtain ⟨p, rfl⟩ := partTake_eq_withPort htake.2
    exact .of_same (hf _).1 ((hf _).2.trans hq)

theorem WireRow.tableStep {high : Bool} (row : WireRow c high) (hheld : s.held = false) (h : exec c s = .next t) :
    TableStep c (s.take c) t := by
  obtain ⟨f, e, hf⟩ := row
  refine tableStep_ofArrive hheld (fun u => ?_) (((e s).trans (if_neg (Bool.eq_false_iff.mp hheld))).symm.trans h)
  obtain ⟨p, csn, e⟩ := hf u
  rw [e]
  exact .of_same rfl rfl

theorem LevelRow.tableStep {keep : Inputs → Inputs} (row : LevelRow c keep) (hm : Block.htm ∉ c.moves)
    (hheld : s.held = false) (h : exec c s = .next t) : TableStep c (s.take c) t := by
  obtain ⟨f, e, -, hf⟩ := row
  refine tableStep_ofArrive hheld (fun u => ?_) (((e s).trans (if_neg (Bool.eq_false_iff.mp hheld))).symm.trans h)
  exact TableStep.after (.of_frame hm (hf u)) rfl rfl

theorem execCalibrationAbort_tableStep (hheld : s.held = false) (h : execCalibrationAbort s = .next t) :
    TableStep .calibrationAbort (s.take .calibrationAbort) t := by
  obtain ⟨n, hchoice⟩ := abortChoice_eq s
  rcases execCalibrationAbort_cases s with ⟨hh, -⟩ | ⟨-, s0, rfl, ⟨-, -, e⟩ | ⟨-, e⟩⟩
  · exact Bool.noConfusion (hheld.symm.trans hh)
  all_goals rw [e, hchoice] at h
  · exact (tableStep_ofArrive (s := { s with choices := n }) hheld
      (fun u => .of_frame (of_decide_eq_false rfl) (onlyBlocks_abortCalibration u)) h).after rfl rfl
  · exact (tableStep_ofPart (s := { s with choices := n }) rfl
      (fun u => ⟨((abortByClear_sameOutside u _).elim fun _ k => k.blocks .htm (of_decide_eq_false rfl)),
        State.inFlight_abortByClear u _⟩) h).after rfl rfl

/-- A command that does not move the table hands nothing over that is watched. -/
theorem tableRow_of_not_moves (c : Instr) (hm : decide (Block.htm ∈ c.moves) = false) : TableRow c := by
  intro s t hheld h1 h2 h3 hturn h
  replace hm := of_decide_eq_false hm
  cases exec_row c
  case arrives f e frame _ => exact tableStep_ofArrive hheld (fun u => .of_frame hm (frame u)) (e s ▸ h)
  case reports f e frame _ hw =>
    have hc := hw.imp_right fun ⟨demand, entered, e⟩ => hturn demand entered e
    exact tableStep_ofReport hheld hc (fun u => .of_frame hm (frame u)) (e s ▸ h)
  case port g row _ _ _ hw =>
    exact tableStep_ofPort hw (fun u => .of_frame (fun hb => hm (List.mem_of_mem_tail hb)) (row.frame u))
      (row.exec_eq s ▸ h)
  case powerOnReset => exact absurd rfl h1
  case supplyBelowResetThreshold => exact absurd rfl h2
  case handOver i j => exact absurd rfl (h3 i j)
  case frameBegin => exact wireRow_frameBegin.tableStep hheld h
  case frameRefused bytes => exact (wireRow_frameRefused bytes).tableStep hheld h
  case nop => exact wireRow_nop.tableStep hheld h
  case pinLevelChange pin high => exact (levelRow_pinLevelChange pin high).tableStep hm hheld h
  case faultReport i active => exact (levelRow_faultReport i active).tableStep hm hheld h
  case ignChange high => exact (levelRow_ignChange high).tableStep hm hheld h
  case blockResult serial st payload =>
    have h : execBlockResult serial st payload s = .next t := h
    refine tableStep_ofArrive hheld (fun u => ?_) h
    split <;> exact .of_same rfl rfl
  case portReset =>
    have h : execPortReset s = .next t := h
    refine tableStep_ofReport hheld (.inl rfl) (fun u => ?_) h
    exact .of_same rfl rfl
  case portLive =>
    have h : execPortLive s = .next t := h
    refine tableStep_ofReport hheld (.inl rfl) (fun u => ?_) h
    exact .of_same rfl rfl
  case flagSetting flags =>
    have h : execFlagSetting flags s = .next t := h
    refine tableStep_ofArrive hheld (fun u => ?_) h
    rw [State.unmarkEnded_eq]
    exact (TableStep.of_frame hm (onlyBlocks_setFlags _ _)).after rfl rfl
  case clearFlags =>
    have h : execClearFlags s = .next t := h
    exact tableStep_ofPart rfl (fun u => ⟨(clearFlags_takeEnded_sameOutside u _).elim fun _ k =>
      k.blocks .htm (of_decide_eq_false rfl), State.inFlight_takeEnded u _⟩) h
  case clearService =>
    have h : execClearService s = .next t := h
    refine tableStep_ofPart rfl (fun u => ?_) h
    exact ⟨rfl, rfl⟩
  case calibrationAbort => exact execCalibrationAbort_tableStep hheld h

/-! #### The rows that move the table -/

theorem tableRow_of_port (x : State → Result) {g : State → State × Reply} (hexec : ∀ s, exec c s = x s)
    (hx : ∀ s, x s = portCommand c s g) (hc : watched c = false) (hg : ∀ u, TableStep c u (g u).1) : TableRow c :=
  fun s _ _ _ _ _ _ h => tableStep_ofPort hc hg (((hexec s).trans (hx s)).symm.trans h)

theorem tableRow_of_arrive (x : State → Result) {f : State → State} (hexec : ∀ s, exec c s = x s)
    (hx : ∀ s, x s = arrive c s f) (hf : ∀ u, TableStep c u (f u)) : TableRow c :=
  fun s _ hheld _ _ _ _ h => tableStep_ofArrive hheld hf (((hexec s).trans (hx s)).symm.trans h)

theorem tableRow_of_report (x : State → Result) {f : State → State} (hexec : ∀ s, exec c s = x s)
    (hx : ∀ s, x s = arriveReport c s f) (hc : watched c = false) (hf : ∀ u, TableStep c u (f u)) : TableRow c :=
  fun s _ hheld _ _ _ _ h => tableStep_ofReport hheld (.inl hc) hf (((hexec s).trans (hx s)).symm.trans h)

theorem tableRow_purge (owner : Byte) : TableRow (.purge owner) := by
  refine tableRow_of_port (execPurge owner) (fun _ => rfl) (fun _ => rfl) rfl fun u => ?_
  dsimp only
  split
  · dsimp only
    exact .of_move (tableMove_retireWhere _ _) (sameLimits_retireWhere _ _)
  · exact .refl _ _

/-- LIMITS alone does not keep the limits. -/
theorem tableRow_limits (network control source : Byte) : TableRow (.limits network control source) :=
  tableRow_of_port (execLimits network control source) (fun _ => rfl) (fun _ => rfl) rfl fun _ =>
    ⟨TableMove.holdsMove (.refl _), fun h => absurd rfl (h network control source), .of_same rfl rfl⟩

theorem tableRow_clear : TableRow .clear := by
  refine tableRow_of_port execClear (fun _ => rfl) (fun _ => rfl) rfl fun _ => ?_
  dsimp only
  exact .of_move (tableMove_retireWhere _ _) (sameLimits_retireWhere _ _)

theorem tableRow_classConfig (cls floor reserve : Byte) : TableRow (.classConfig cls floor reserve) := by
  refine tableRow_of_port (execClassConfig cls floor reserve) (fun _ => rfl) (fun _ => rfl) rfl fun u => ?_
  split
  · exact (tableStep_applyFloor _ _ _ _).after rfl rfl
  · exact .refl _ _

theorem tableRow_holdSecond : TableRow .holdSecond := by
  refine tableRow_of_arrive execHoldSecond (fun _ => rfl) execHoldSecond_eq fun u => ?_
  refine .of_move (tableMove_holdSecond u) (SameLimits.trans ?_ (sameLimits_afterStarts _))
  rw [State.withHtm_htm]
  exact (sameLimits_mapHolds _ _).trans (sameLimits_afterExpiries _)

/-- One hold whose time runs out. -/
theorem tableStep_expire {i : Fin 48} {h : Hold} (hi : (u.htm.slots[i]'i.2).hold.map countHold = some h)
    (hexp : isExpired h = true) (e : List DomainSet) (fs : List Flag) :
    TableStep c u (u.settleTable (u.htm.expire i h) e fs) := by
  obtain ⟨g, hg, rfl⟩ := Option.map_eq_some_iff.mp hi
  refine .of_move (tableMove_expire hg hexp) ?_
  unfold Htm.expire
  split <;> rfl

theorem tableRow_holdExpiry (i : Fin 48) : TableRow (.holdExpiry i) := by
  refine tableRow_of_arrive (execHoldExpiry i) (fun _ => rfl) (fun _ => rfl) fun u => ?_
  split
  · split
    · exact tableStep_expire ‹_› (Bool.and_eq_true_iff.mp ‹_›).1 _ _
    · exact .refl _ _
  · exact .refl _ _

theorem tableRow_repeatExpiry (i : Fin 48) : TableRow (.repeatExpiry i) := by
  refine tableRow_of_arrive (execRepeatExpiry i) (fun _ => rfl) (fun _ => rfl) fun u => ?_
  split
  · split
    · exact tableStep_expire ‹_› (Bool.and_eq_true_iff.mp ‹_›).1 _ _
    · exact .refl _ _
  · exact .refl _ _

theorem tableRow_appointmentStart (i : Fin 48) : TableRow (.appointmentStart i) := by
  refine tableRow_of_arrive (execAppointmentStart i) (fun _ => rfl) (fun _ => rfl) fun u => ?_
  split
  · rename_i x hx
    obtain ⟨g, hg, rfl⟩ := Option.map_eq_some_iff.mp hx
    split
    · rename_i hdue
      exact .of_move (tableMove_putHold hg (holdMove_startHold rfl
        (secondHold_of_not_expired (not_isExpired_of_isDue hdue)) hdue)) (sameLimits_putHold _ _ _)
    · exact .refl _ _
  · exact .refl _ _

theorem tableRow_attribution (shares : List (Handle × Nat)) : TableRow (.attribution shares) :=
  tableRow_of_arrive (execAttribution shares) (fun _ => rfl) (fun _ => rfl) fun u =>
    .of_move (tableMove_attribution _ _) (SameLimits.trans
      (sameLimits_foldl (table := id) (fun t e => sameLimits_addShare t e) _ u.htm) (sameLimits_retireWhere _ _))

theorem tableRow_owner47Request (code : Fin 166) : TableRow (.owner47Request code) := by
  refine tableRow_of_arrive (execOwner47Request code) (fun _ => rfl) (fun _ => rfl) fun u => ?_
  split
  · exact tableStep_renewHost ‹_›
  · rename_i hnone
    split
    · refine tableStep_createEvicting (.inr ⟨code, rfl, rfl⟩) (fun _ j g hg => ?_) ‹_›
      simpa using Htm.firstWhere_eq_none.mp hnone j g hg
    · exact .refl _ _

theorem exec_tableRow (c : Instr) : TableRow c := by
  cases c
  case request owner mask cls code delay interval cap =>
    exact tableRow_of_port (execRequest owner mask cls code delay interval cap) (fun _ => rfl)
      (fun _ => rfl) rfl fun _ =>
      tableStep_takeRequest fun _ => lawful_requestArgs
  case renew handle code =>
    exact tableRow_of_port (execRenew handle code) (fun _ => rfl) (fun _ => rfl) rfl fun _ => tableStep_takeRenew _ _ _
  case release handle =>
    exact tableRow_of_port (execRelease handle) (fun _ => rfl) (fun _ => rfl) rfl fun _ => tableStep_takeRelease _ _
  case purge => exact tableRow_purge _
  case limits => exact tableRow_limits _ _ _
  case clear => exact tableRow_clear
  case classConfig => exact tableRow_classConfig _ _ _
  case networkRequest node mask cls code tag =>
    exact tableRow_of_arrive (execNetworkRequest node mask cls code tag) (fun _ => rfl) (fun _ => rfl) fun _ =>
      (tableStep_takeRequest fun _ => lawful_netRequestArgs).hand rfl
  case networkRenew node handle code =>
    exact tableRow_of_arrive (execNetworkRenew node handle code) (fun _ => rfl) (fun _ => rfl) fun _ =>
      (tableStep_takeRenew _ _ _).hand rfl
  case networkRelease node handle =>
    exact tableRow_of_arrive (execNetworkRelease node handle) (fun _ => rfl) (fun _ => rfl) fun _ =>
      (tableStep_takeRelease _ _).hand rfl
  case application source index x =>
    exact tableRow_of_arrive (execApplication source index x) (fun _ => rfl) (fun _ => rfl) fun _ =>
      (tableStep_apply _ _ _).hand rfl
  case holdSecond => exact tableRow_holdSecond
  case holdExpiry => exact tableRow_holdExpiry _
  case repeatExpiry => exact tableRow_repeatExpiry _
  case appointmentStart => exact tableRow_appointmentStart _
  case attribution => exact tableRow_attribution _
  case owner47Request => exact tableRow_owner47Request _
  case budgetTierReport tier entry =>
    exact tableRow_of_report (execBudgetTierReport tier entry) (fun _ => rfl) (fun _ => rfl) rfl fun _ =>
      tableStep_tierReport _ _ _
  case voltageCeilingReport ceiling =>
    exact tableRow_of_report (execVoltageCeilingReport ceiling) (fun _ => rfl) (fun _ => rfl) rfl fun _ =>
      tableStep_tierReport _ _ _
  case modeReport mode =>
    exact tableRow_of_report (execModeReport mode) (fun _ => rfl) (fun _ => rfl) rfl fun _ => tableStep_tierReport _ _ _
  case powerOnReset => exact fun _ _ _ h => absurd rfl h
  case supplyBelowResetThreshold => exact fun _ _ _ _ h => absurd rfl h
  all_goals exact tableRow_of_not_moves _ (Eq.refl false)

/-! #### What follows for every command -/

/-- While the part is held in power-on reset, a command changes the levels of the inputs at most. -/
theorem exec_held_frame (hheld : s.held = true) (h1 : c ≠ .powerOnReset) (h2 : c ≠ .supplyBelowResetThreshold)
    (h : exec c s = .next t) : ∃ levels, t = { s with inputs := levels } := by
  have hlevels : ∀ levels, exec c s = .next { s with inputs := levels } → ∃ levels, t = { s with inputs := levels } :=
    fun levels e => ⟨levels, (Host.Outcome.next.inj (e.symm.trans h)).symm⟩
  cases hcsn : c.movesCsn
  · cases hlevel : c.tracksInput
    · exact hlevels s.inputs (exec_of_held hheld h1 h2 hlevel hcsn)
    · cases exec_row c
      case pinLevelChange pin high => exact hlevels _ ((levelRow_pinLevelChange pin high).of_held hheld)
      case faultReport i active => exact hlevels _ ((levelRow_faultReport i active).of_held hheld)
      case ignChange high => exact hlevels _ ((levelRow_ignChange high).of_held hheld)
      case arrives f _ _ hp => exact Bool.noConfusion ((plain_eq_true hp).1.symm.trans hlevel)
      case reports f _ _ hp _ => exact Bool.noConfusion ((plain_eq_true hp).1.symm.trans hlevel)
      case port hlevel' _ => exact Bool.noConfusion (hlevel'.symm.trans hlevel)
      all_goals exact absurd hlevel Bool.false_ne_true
  · exact hlevels _ (exec_of_held_csn hheld hcsn)

/-- A command that moves the table reports, hands over no application and is taken wherever it arrives. -/
theorem tableStep_of_moves (hm : Block.htm ∈ c.moves) (hheld : s.held = false) (h1 : c ≠ .powerOnReset)
    (h2 : c ≠ .supplyBelowResetThreshold) (h : exec c s = .next t) : TableStep c (s.take c) t := by
  refine exec_tableRow c s t hheld h1 h2 ?_ ?_ h
  · rintro i j rfl
    exact absurd hm (of_decide_eq_false rfl)
  · rintro demand entered rfl
    exact absurd hm (of_decide_eq_false rfl)

/-- All that a command but the two of the supply can do to the holds, and to the limits but for LIMITS. -/
theorem exec_table (h1 : c ≠ .powerOnReset) (h2 : c ≠ .supplyBelowResetThreshold) (h : exec c s = .next t) :
    HoldsMove c s t ∧ ((∀ network control source, c ≠ .limits network control source) → SameLimits s.htm t.htm) := by
  have hsame : t.htm = s.htm → HoldsMove c s t ∧ ((∀ network control source, c ≠ .limits network control source) →
      SameLimits s.htm t.htm) := fun e => ⟨holdsMove_of_same e, fun _ => e ▸ .refl _⟩
  by_cases hm : Block.htm ∈ c.moves
  · cases hheld : s.held
    · have k := tableStep_of_moves hm hheld h1 h2 h
      exact ⟨k.holds, k.limits⟩
    · obtain ⟨levels, rfl⟩ := exec_held_frame hheld h1 h2 h
      exact hsame rfl
  · exact hsame ((exec_kept h).blocks .htm hm)

theorem exec_holdsMove (h1 : c ≠ .powerOnReset) (h2 : c ≠ .supplyBelowResetThreshold) (h : exec c s = .next t) :
    HoldsMove c s t := (exec_table h1 h2 h).1

/-- Every command but those of the supply and LIMITS keeps the owner limits. -/
theorem exec_limitsKept (h1 : c ≠ .powerOnReset) (h2 : c ≠ .supplyBelowResetThreshold)
    (h3 : ∀ network control source, c ≠ .limits network control source) (h : exec c s = .next t) :
    SameLimits s.htm t.htm := (exec_table h1 h2 h).2 h3

/-- Every command but those of the supply and HAND_OVER hands over at most one report of hold-demand, and no
application (R10). -/
theorem exec_reports (hheld : s.held = false) (h1 : c ≠ .powerOnReset) (h2 : c ≠ .supplyBelowResetThreshold)
    (h3 : ∀ i j, c ≠ .handOver i j) (hturn : ∀ demand entered, c = .holdDemandReport demand entered → TakesReport c s)
    (h : exec c s = .next t) : Reports (s.take c) t := (exec_tableRow c s t hheld h1 h2 h3 hturn h).reports

end Sys2Proof.Machine

/-! ### Hold-demand (R10) -/

namespace Sys2Proof.Machine

variable {c : Instr} {s t u v : State}

/-- The reports of hold-demand. -/
def isDemandReport : Instr → Bool
  | .holdDemandReport .. => true
  | _ => false

theorem filter_isDemandReport_eq (l : List Instr) :
    l.filter isDemandReport = (l.filter watched).filter isDemandReport := by
  rw [List.filter_filter]
  congr 1
  funext x
  cases x <;> rfl

theorem Htm.demand_getLsbD (t : Htm) (d : Nat) :
    t.demand.getLsbD d = true ↔
      ∃ i : Fin 48, ∃ h, (t.slots[i]'i.2).hold = some h ∧ h.state = .active ∧ h.mask.getLsbD d = true := by
  unfold Htm.demand
  simp only [Htm.unionActive_getLsbD, mem_allSlots, true_and, Slot.activeMask_getLsbD]

theorem State.settleTable_eq (s : State) (t : Htm) (entered : List DomainSet) (flags : List Flag) :
    s.settleTable t entered flags = { s with
      htm := t
      handed := s.handed
        ++ (if t.demand = s.htm.demand ∧ entered = [] then [] else [.holdDemandReport t.demand entered])
        ++ (if flags = [] then [] else [.flagSetting (flagsOf flags)]) } := by
  unfold State.settleTable
  rw [State.raise_eq, State.reportDemand_eq]
  rfl

theorem exec_handOver {i j : Fin 16} (hheld : s.held = false) :
    exec (.handOver i j) s =
      .next ((s.take (.handOver i j)).hand (.application i j (s.tpe.templates[j]'j.2))) := by
  show execHandOver i j s = _
  unfold execHandOver
  rw [arrive_next hheld]
  rfl

theorem exec_demandReports (hheld : s.held = false) (h1 : c ≠ .powerOnReset) (h2 : c ≠ .supplyBelowResetThreshold)
    (hturn : ∀ demand entered, c = .holdDemandReport demand entered → TakesReport c s) (h : exec c s = .next t) :
    ∃ new, t.handed.filter isDemandReport = (s.handed.erase c).filter isDemandReport ++ new
      ∧ (new = [] ∨ ∃ entered, new = [.holdDemandReport t.htm.demand entered])
      ∧ (new = [] → t.htm.demand = s.htm.demand)
      ∧ (t.htm.demand = s.htm.demand → new ≠ [.holdDemandReport t.htm.demand []]) := by
  by_cases hhand : ∃ i j, c = .handOver i j
  · obtain ⟨i, j, rfl⟩ := hhand
    rw [exec_handOver hheld] at h
    cases h
    refine ⟨[], ?_, .inl rfl, fun _ => rfl, fun _ => by simp⟩
    rw [List.append_nil, State.hand_handed, List.filter_append]
    exact List.append_nil _
  · obtain ⟨new, hnew, hform, hnone, hsame⟩ :=
      exec_reports hheld h1 h2 (fun i j e => hhand ⟨i, j, e⟩) hturn h
    refine ⟨new, ?_, hform, hnone, hsame⟩
    have hfilter : new.filter isDemandReport = new := by
      rcases hform with rfl | ⟨entered, rfl⟩ <;> rfl
    calc t.handed.filter isDemandReport
        = t.inFlight.filter isDemandReport := filter_isDemandReport_eq _
      _ = (s.take c).inFlight.filter isDemandReport ++ new := by rw [hnew, List.filter_append, hfilter]
      _ = (s.handed.erase c).filter isDemandReport ++ new := by
        rw [filter_isDemandReport_eq (s.handed.erase c)]
        rfl

/-- Settles O16. Every row but those of the supply ends in one settling of the table, or leaves the holds' states and
masks alone (`exec_reports`). -/
theorem holdDemandComesFromActiveHolds : Obligations.HoldDemandComesFromActiveHolds := by
  refine ⟨fun t d => t.demand_getLsbD d.val, State.settleTable_eq, ?_⟩
  intro c s t hheld h1 h2 hturn h
  exact exec_demandReports hheld h1 h2 hturn h

end Sys2Proof.Machine

/-! ### The law of the effective tier (R30, R33, R42, R47) -/

namespace Sys2Proof.Machine

variable {c : Instr} {s t u v : State} {tau : Tau} {h h' x : Hold}

/-! #### What no move of a hold changes -/

/-- The fields of a record that stay while the hold is in its slot. -/
structure SameFields (h h' : Hold) : Prop where
  owner : h'.owner = h.owner
  mask : h'.mask = h.mask
  cls : h'.cls = h.cls
  interval : h'.interval = h.interval
  cap : h'.cap = h.cap
  template : h'.template = h.template

theorem sameFields_countHold (h : Hold) : SameFields h (countHold h) := by
  unfold countHold
  split
  · exact ⟨rfl, rfl, rfl, rfl, rfl, rfl⟩
  all_goals split <;> exact ⟨rfl, rfl, rfl, rfl, rfl, rfl⟩

theorem countHold_state (h : Hold) : (countHold h).state = h.state := by
  unfold countHold
  split
  · rfl
  all_goals split <;> rfl

theorem countHold_code (h : Hold) : (countHold h).code = h.code := by
  unfold countHold
  split
  · rfl
  all_goals split <;> rfl

/-- A hold that a second leaves in its slot has been counted, or waits again for its start. -/
theorem secondHold_cases (hx : secondHold h = some x) :
    (x = countHold h ∧ isExpired (countHold h) = false)
      ∨ ∃ m, isExpired (countHold h) = true ∧ h.interval = some m
        ∧ x = (countHold h).waiting (gridCountdown m ((countHold h).sinceStart.getD 0)) := by
  unfold secondHold at hx
  split at hx
  · rename_i hexp
    obtain ⟨m, hm, rfl⟩ := Option.map_eq_some_iff.mp hx
    exact .inr ⟨m, hexp, (sameFields_countHold h).interval ▸ hm, rfl⟩
  · cases hx
    exact .inl ⟨rfl, Bool.eq_false_of_not_eq_true ‹_›⟩

theorem sameFields_secondHold (hx : secondHold h = some x) : SameFields h x := by
  obtain ⟨h1, h2, h3, h4, h5, h6⟩ := sameFields_countHold h
  rcases secondHold_cases hx with ⟨rfl, -⟩ | ⟨m, -, -, rfl⟩ <;> exact ⟨h1, h2, h3, h4, h5, h6⟩

theorem HoldMove.sameFields (hm : HoldMove tau h h') : SameFields h h' := by
  cases hm
  case counted hx _ => exact sameFields_secondHold hx
  case waits =>
    obtain ⟨h1, h2, h3, h4, h5, h6⟩ := sameFields_countHold h
    exact ⟨h1, h2, h3, h4, h5, h6⟩
  case begins x hx _ _ =>
    obtain ⟨h1, h2, h3, h4, h5, h6⟩ := sameFields_secondHold hx
    exact ⟨h1, h2, h3, h4, h5, h6⟩
  case fails x hx _ =>
    obtain ⟨h1, h2, h3, h4, h5, h6⟩ := sameFields_secondHold hx
    exact ⟨h1, h2, h3, h4, h5, h6⟩
  all_goals exact ⟨rfl, rfl, rfl, rfl, rfl, rfl⟩

/-! #### No ACTIVE hold above the tier -/

/-- A hold that was ACTIVE was at or below the tier; then so is one that has moved. -/
theorem HoldMove.floorOk (hm : HoldMove tau h h') (hs : h.state = .active → tau.floorOk h.cls = true)
    (hact : h'.state = .active) : tau.floorOk h'.cls = true := by
  rw [hm.sameFields.cls]
  cases hm
  case counted hx _ =>
    rcases secondHold_cases hx with ⟨rfl, -⟩ | ⟨m, -, -, rfl⟩
    · exact hs (countHold_state h ▸ hact)
    · cases hact
  case waits => cases hact
  case begins x hx _ hfloor => exact (sameFields_secondHold hx).cls ▸ hfloor
  case fails => cases hact
  case resumed hfloor => exact hfloor
  case suspended => cases hact
  all_goals exact hs hact

theorem HoldMade.floorOk (hm : HoldMade c tau h) (hact : h.state = .active) : tau.floorOk h.cls = true := by
  cases hm
  case requested a ha hfloor =>
    unfold RequestArgs.hold at hact ⊢
    cases hdelay : a.delay
    · exact hfloor hdelay
    · simp only [hdelay] at hact
      cases hact
  case admitted h hc hfloor => exact hfloor
  case refused => cases hact

theorem tierSound_congr (hhtm : t.htm = s.htm) (htau : t.tau = s.tau) (hs : tierSound s) : tierSound t := by
  obtain ⟨h1, h2⟩ := hs
  exact ⟨by rw [htau]; exact h1, by rw [htau, hhtm]; exact h2⟩

theorem tierSound_blind : BlindToPort tierSound :=
  ⟨fun _ _ _ => tierSound_congr rfl rfl, fun _ _ => tierSound_congr rfl rfl⟩

/-- Where the holds move under the records of the tier as they stood. -/
theorem tierSound_of_holdsMove (hm : HoldsMove c s t) (htau : t.tau = s.tau) (hs : tierSound s) : tierSound t := by
  obtain ⟨made, hmove, hmade⟩ := hm
  refine ⟨htau ▸ hs.formed, fun i h' hh hact => ?_⟩
  rcases hmove i h' hh with ⟨h, hi, hm⟩ | hm
  · refine hm.floorOk (fun ha => ?_) hact
    rw [htau]
    exact hs.floors i h hi ha
  · exact (hmade i h' hm).1.floorOk hact

/-- A resume sweep under records of the tier that the ACTIVE holds before it respect. -/
theorem tierSound_sweepUp (hs : tierSound s) (fs : List Flag) : tierSound (s.sweepUp fs) := by
  refine tierSound_of_holdsMove (c := .nop) (TableMove.holdsMove ?_) (State.settleTable_tau ..) hs
  unfold State.sweepUp
  rw [State.settleTable_tau, State.settleTable_htm]
  exact tableMove_resumeSweep s

theorem Htm.suspendWhere_active {t : Htm} {p : Hold → Bool} {i : Fin 48} (hh : ((t.suspendWhere p).slots[i]'i.2).hold = some h)
    (hact : h.state = .active) : (t.slots[i]'i.2).hold = some h ∧ p h = false := by
  rw [Htm.suspendWhere, Htm.mapHolds_slot] at hh
  obtain ⟨g, hg, e⟩ := Option.map_eq_some_iff.mp hh
  split at e
  · rw [← e] at hact
    cases hact
  · rename_i hp
    subst e
    refine ⟨hg, ?_⟩
    simpa [hact] using hp

theorem tierSound_sweepDown (hformed : s.tau.effective = s.tau.formed) (fs : List Flag) : tierSound (s.sweepDown fs) := by
  unfold State.sweepDown
  refine ⟨by rw [State.settleTable_tau]; exact hformed, fun i h hh hact => ?_⟩
  rw [State.settleTable_htm] at hh
  rw [State.settleTable_tau]
  simpa [Tau.aboveTier] using (Htm.suspendWhere_active hh hact).2

theorem Tau.floorOk_mono {tau' : Tau} {k : Fin 8} (hcls : tau'.classes = tau.classes)
    (hrank : tau.effective.rank ≤ tau'.effective.rank) (h : tau.floorOk k = true) : tau'.floorOk k = true := by
  unfold Tau.floorOk at h ⊢
  rw [decide_eq_true_eq] at h ⊢
  rw [hcls]
  exact h.trans hrank

/-- The report is recorded, the tier formed, and a fall sweeps the ACTIVE holds above it out (R33, R34, R42). -/
theorem tierSound_tierReport {r : Tau} (hr : r.classes = s.tau.classes) (run : Bool) (hs : tierSound s) :
    tierSound (s.tierReport r run) := by
  have hkept : ¬ r.formed.rank < s.tau.effective.rank →
      tierSound { s with tau := { r with effective := r.formed } } := fun hle =>
    ⟨rfl, fun i h hi hact => Tau.floorOk_mono hr (Nat.le_of_not_lt hle) (hs.floors i h hi hact)⟩
  unfold State.tierReport
  dsimp only
  split
  · exact tierSound_sweepDown rfl _
  · rename_i hle
    split
    · exact tierSound_sweepUp (hkept hle) _
    · split
      · exact tierSound_sweepUp (hkept hle) _
      · exact hkept hle

/-- A class configured anew: a floor raised above the tier sweeps the ACTIVE holds of the class out (R47). -/
theorem tierSound_applyFloor {k : Fin 8} {f : Tier} {r : Byte} (hs : tierSound s) :
    tierSound (State.applyFloor { s with tau := { s.tau with classes := s.tau.classes.set k ⟨f, r⟩ k.2 } } k
      (s.tau.classes[k]'k.2).floor f) := by
  have hother : ∀ j, j ≠ k → s.tau.floorOk j = true →
      Tau.floorOk { s.tau with classes := s.tau.classes.set k ⟨f, r⟩ k.2 } j = true := fun j hj h => by
    have hne : k.val ≠ j.val := fun e => hj (Fin.ext e.symm)
    unfold Tau.floorOk at h ⊢
    simpa [Vector.getElem_set, hne] using h
  have hself : f.rank ≤ s.tau.effective.rank →
      Tau.floorOk { s.tau with classes := s.tau.classes.set k ⟨f, r⟩ k.2 } k = true := fun h => by
    unfold Tau.floorOk
    simpa [Vector.getElem_set] using h
  have hkept : ((s.tau.classes[k]'k.2).floor.rank ≤ s.tau.effective.rank → f.rank ≤ s.tau.effective.rank) →
      tierSound { s with tau := { s.tau with classes := s.tau.classes.set k ⟨f, r⟩ k.2 } } := fun hle =>
    ⟨hs.formed, fun i h hi hact => by
      have hok := hs.floors i h hi hact
      by_cases hj : h.cls = k
      · rw [hj]
        refine hself (hle ?_)
        rw [hj] at hok
        simpa [Tau.floorOk] using hok
      · exact hother _ hj hok⟩
  unfold State.applyFloor
  split
  · split
    · refine ⟨by rw [State.settleTable_tau]; exact hs.formed, fun i h hh hact => ?_⟩
      rw [State.settleTable_htm] at hh
      rw [State.settleTable_tau]
      obtain ⟨hi, hne⟩ := Htm.suspendWhere_active hh hact
      exact hother _ (by simpa using hne) (hs.floors i h hi hact)
    · rename_i hle
      exact hkept fun _ => Nat.le_of_not_lt hle
  · rename_i hnot
    have hle : f.rank ≤ (s.tau.classes[k]'k.2).floor.rank := Nat.le_of_not_lt hnot
    split
    · exact tierSound_sweepUp (hkept fun h => hle.trans h) _
    · exact hkept fun h => hle.trans h

/-! #### After power-on reset (R28, R30, R32) -/

theorem Htm.free_slot (i : Fin 48) : Htm.free.slots[i]'i.2 = Slot.reset := by
  simp [Htm.free]

theorem Htm.reset_hold {i : Fin 48} : (Htm.reset.slots[i]'i.2).hold = some h ↔ i = 0 ∧ h = bootHold := by
  by_cases hi : i = 0
  · subst hi
    constructor
    · rintro ⟨⟩
      exact ⟨rfl, rfl⟩
    · rintro ⟨-, rfl⟩
      rfl
  · have hne : (0 : Nat) ≠ i.val := fun e => hi (Fin.ext e.symm)
    have hslot : Htm.reset.slots[i]'i.2 = Slot.reset := by
      simp [Htm.reset, Htm.free, hne]
    rw [hslot]
    simp [Slot.reset, hi]

theorem tierSound_of_reset {ign : Bool} (h : s.tau = Tau.reset ign) : tierSound s := by
  refine ⟨?_, fun i x _ _ => ?_⟩
  · rw [h]
    cases ign <;> rfl
  · unfold Tau.floorOk
    have hgreen : s.tau.effective = .green := by rw [h]; rfl
    rw [hgreen, decide_eq_true_eq]
    cases (s.tau.classes[x.cls]'x.cls.2).floor <;> decide

/-- A command that does not move the records of the tier moves the holds under them. -/
theorem tierSound_kept (c : Instr) (hm : decide (Block.tau ∈ c.moves) = false) : Keeps tierSound c := by
  intro s t hs h
  replace hm := of_decide_eq_false hm
  refine tierSound_of_holdsMove (exec_holdsMove ?_ ?_ h) ((exec_kept h).blocks .tau hm) hs
  all_goals
    rintro rfl
    exact hm (of_decide_eq_true rfl)

theorem exec_tierSound (c : Instr) : Keeps tierSound c := by
  cases c
  case powerOnReset | supplyBelowResetThreshold =>
    intro s t hs h
    cases h
    exact tierSound_of_reset (ign := s.inputs.ign) rfl
  case classConfig =>
    intro s t hs h
    change execClassConfig _ _ _ s = _ at h
    refine portCommand_keeps tierSound_blind (fun u _ hu => ?_) hs h
    split
    · exact tierSound_applyFloor hu
    · exact hu
  case budgetTierReport =>
    intro s t hs h
    change execBudgetTierReport _ _ s = _ at h
    exact arriveReport_keeps tierSound_blind (fun u _ hu => tierSound_tierReport (by rfl) _ hu) hs h
  case voltageCeilingReport =>
    intro s t hs h
    change execVoltageCeilingReport _ s = _ at h
    exact arriveReport_keeps tierSound_blind (fun u _ hu => tierSound_tierReport (by rfl) _ hu) hs h
  case modeReport =>
    intro s t hs h
    change execModeReport _ s = _ at h
    exact arriveReport_keeps tierSound_blind (fun u _ hu => tierSound_tierReport (by rfl) _ hu) hs h
  all_goals exact tierSound_kept _ (Eq.refl false)

/-- Settles O11: no move of a hold under unchanged records makes it ACTIVE above the tier (`HoldMove.floorOk`), and each
row that moves the records sweeps. -/
theorem noActiveHoldAboveTheEffectiveTier : Obligations.NoActiveHoldAboveTheEffectiveTier :=
  step_keeps (fun _ _ => tierSound_congr rfl rfl) exec_tierSound fun s =>
    tierSound_congr (crystalPeriod_sameIn (b := .htm) (by simp) s) (crystalPeriod_sameIn (b := .tau) (by simp) s)

end Sys2Proof.Machine

/-! ### Command frames (R182 to R184, R200) -/

namespace Sys2Proof.Machine

variable {c : Instr}

/-! #### The bytes of an argument, put and read -/

theorem append_extract {m n : Nat} (w : BitVec (m + n)) : w.extractLsb' n m ++ w.extractLsb' 0 n = w := by
  rw [BitVec.extractLsb'_append_extractLsb'_eq_extractLsb' (Nat.zero_add n).symm]
  exact BitVec.extractLsb'_eq_self

theorem join16 (w : BitVec 16) : w.extractLsb' 8 8 ++ w.extractLsb' 0 8 = w := append_extract (m := 8) (n := 8) w

theorem join32 (w : BitVec 32) :
    ((w.extractLsb' 16 16).extractLsb' 8 8 ++ (w.extractLsb' 16 16).extractLsb' 0 8)
      ++ ((w.extractLsb' 0 16).extractLsb' 8 8 ++ (w.extractLsb' 0 16).extractLsb' 0 8) = w := by
  rw [join16, join16]
  exact append_extract (m := 16) (n := 16) w

theorem arg64_put64 (w : BitVec 64) (a : List Byte) : arg64 (put64 w ++ a) 0 = w :=
  (congr (congrArg _ (join32 _)) (join32 _)).trans (append_extract (m := 32) (n := 32) w)

theorem put16_arg16 (a : List Byte) (i : Nat) : put16 (arg16 a i) = [arg8 a i, arg8 a (i + 1)] := by
  unfold put16 arg16
  rw [BitVec.extractLsb'_append_eq_left, BitVec.extractLsb'_append_eq_right]

theorem put32_arg32 (a : List Byte) (i : Nat) :
    put32 (arg32 a i) = [arg8 a i, arg8 a (i + 1), arg8 a (i + 2), arg8 a (i + 3)] := by
  unfold put32 arg32
  rw [BitVec.extractLsb'_append_eq_left, BitVec.extractLsb'_append_eq_right, put16_arg16, put16_arg16]
  rfl

theorem put64_arg64 (a : List Byte) (i : Nat) :
    put64 (arg64 a i) = put32 (arg32 a i) ++ put32 (arg32 a (i + 4)) := by
  unfold put64 arg64
  rw [BitVec.extractLsb'_append_eq_left, BitVec.extractLsb'_append_eq_right]

theorem putWindow_argWindow (a : List Byte) (i : Nat) :
    putWindow (argWindow a i) = [arg8 a i, arg8 a (i + 1), arg8 a (i + 2), arg8 a (i + 3), arg8 a (i + 4),
      arg8 a (i + 5), arg8 a (i + 6)] := by
  unfold putWindow argWindow
  rw [put16_arg16, put16_arg16]
  rfl

theorem map_arg8_range (a : List Byte) : (List.range a.length).map (arg8 a) = a := by
  refine List.ext_getElem (by simp) fun i _ h => ?_
  rw [List.getElem_map, List.getElem_range]
  exact List.getD_eq_getElem a 0 h

/-! #### The command set -/

/-- What a row of the command set says: it reads a command of some block, or NOP, which the encoder writes under this code
with the bytes read. -/
def CodeRow (n : Nat) (o : Option (Nat × (List Byte → Instr))) : Prop :=
  ∀ e ∈ o, ∀ a : List Byte, (e.2 a = .nop ∨ (e.2 a).portBlock.isSome = true)
    ∧ commandBytes (e.2 a) = some (BitVec.ofNat 8 n, (List.range e.1).map (arg8 a)) ∧ e.1 ≤ 124

theorem CodeRow.of_read {n L : Nat} {read : List Byte → Instr} {l : List Byte → List Byte}
    (hc : ∀ a, commandBytes (read a) = some (BitVec.ofNat 8 n, l a)) (hl : ∀ a, l a = (List.range L).map (arg8 a))
    (hb : ∀ a, (read a).portBlock.isSome = true) (hL : Nat.ble L 124 = true) : CodeRow n (some (L, read)) := by
  rintro e ⟨⟩ a
  exact ⟨.inr (hb a), (hc a).trans (congrArg (fun l => some (_, l)) (hl a)), Nat.le_of_ble_eq_true hL⟩

/-- A match on a number, one alternative at a time. -/
theorem CodeRow.of_dite {n k : Nat} {t : n = k → Option (Nat × (List Byte → Instr))}
    {e : n ≠ k → Option (Nat × (List Byte → Instr))} (ht : ∀ h : n = k, CodeRow n (t h)) (he : ∀ h, CodeRow n (e h)) :
    CodeRow n (dite (n = k) t e) := by
  split
  · exact ht _
  · exact he _

theorem codeRow_commandSet (code : Byte) : CodeRow code.toNat (commandSet code) := by
  delta commandSet commandSet.match_1
  generalize code.toNat = n
  refine .of_dite (fun h => ?_) fun _ => ?_
  · subst h
    rintro e ⟨⟩ a
    exact ⟨.inl rfl, rfl, Nat.zero_le _⟩
  repeat
    refine .of_dite (fun h => by
      subst h
      refine CodeRow.of_read (fun a => rfl) (fun a => ?_) (fun a => rfl) (Eq.refl true)
      try simp only [BitVec.extractLsb'_append_eq_left, BitVec.extractLsb'_append_eq_right, put16_arg16, put32_arg32,
        put64_arg64, putWindow_argWindow]
      rfl) fun _ => ?_
  exact fun e he => by cases he

/-- What a frame carries, but for NOP, is a command of some block (R184, R200). -/
theorem commandSet_portBlock {code : Byte} {L : Nat} {read : List Byte → Instr} (h : commandSet code = some (L, read))
    (a : List Byte) : read a = .nop ∨ (read a).portBlock.isSome = true :=
  (codeRow_commandSet code (L, read) h a).1

theorem commandBytes_read {code : Byte} {read : List Byte → Instr} {a : List Byte}
    (h : commandSet code = some (a.length, read)) : commandBytes (read a) = some (code, a) := by
  refine (codeRow_commandSet code (a.length, read) h a).2.1.trans ?_
  rw [map_arg8_range, BitVec.ofNat_toNat, BitVec.setWidth_eq]

/-! #### Judging a frame -/

theorem judgeFrame_of_take {bytes : List Byte} {code len : Byte} {rest : List Byte}
    (h : bytes.take 128 = code :: len :: rest) :
    judgeFrame bytes =
      if len.toNat > 124 ∨ rest.length < len.toNat + 1 then .refused .framing
      else if byteSum (code :: len :: rest.take (len.toNat + 1)) ≠ 0 then .refused .check
      else (commandSet code).elim (.refused .unknown) fun e =>
        if len.toNat ≠ e.1 then .refused .arg else .command (e.2 (rest.take len.toNat)) := by
  unfold judgeFrame
  rw [h]
  dsimp only
  cases commandSet code <;> rfl

/-- A command is carried by a whole frame of its length with its checksum. -/
theorem judgeFrame_eq_command {bytes : List Byte} (h : judgeFrame bytes = .command c) :
    ∃ code len args chk more read, bytes = code :: len :: args ++ chk :: more ∧ args.length = len.toNat
      ∧ byteSum (code :: len :: args ++ [chk]) = 0 ∧ commandSet code = some (args.length, read) ∧ c = read args := by
  match htake : bytes.take 128 with
  | [] | [_] =>
    unfold judgeFrame at h
    rw [htake] at h
    cases h
  | code :: len :: rest =>
    rw [judgeFrame_of_take htake] at h
    split at h
    · cases h
    · rename_i hlen
      rw [not_or, not_lt, not_lt] at hlen
      split at h
      · cases h
      · rename_i hsum
        cases hset : commandSet code with
        | none =>
          rw [hset] at h
          cases h
        | some e =>
          rw [hset, Option.elim_some] at h
          split at h
          · cases h
          · rename_i hL
            have hargs : (rest.take len.toNat).length = len.toNat :=
              List.length_take_of_le (Nat.le_of_succ_le hlen.2)
            have hrest : rest = rest.take len.toNat ++ rest[len.toNat]'hlen.2 :: rest.drop (len.toNat + 1) := by
              rw [List.getElem_cons_drop, List.take_append_drop]
            refine ⟨code, len, rest.take len.toNat, rest[len.toNat]'hlen.2, rest.drop (len.toNat + 1) ++ bytes.drop 128,
              e.2, ?_, hargs, ?_, ?_, (FrameVerdict.command.inj h).symm⟩
            · calc bytes = bytes.take 128 ++ bytes.drop 128 := (List.take_append_drop _ _).symm
                _ = code :: len :: (rest ++ bytes.drop 128) := by rw [htake]; rfl
                _ = _ := by
                  conv_lhs => rw [hrest]
                  rw [List.append_assoc]
                  rfl
            · show byteSum (code :: len :: (rest.take len.toNat ++ [rest[len.toNat]'hlen.2])) = 0
              rw [← List.take_succ_eq_append_getElem hlen.2]
              exact not_ne_iff.mp hsum
            · rw [hargs, not_ne_iff.mp hL]
              exact hset

theorem judgeFrame_portBlock {bytes : List Byte} (h : judgeFrame bytes = .command c) (hnop : c ≠ .nop) :
    c.portBlock.isSome = true := by
  obtain ⟨code, len, args, chk, more, read, -, -, -, hset, rfl⟩ := judgeFrame_eq_command h
  exact (commandSet_portBlock hset args).resolve_left hnop

/-! #### The encoder is read back -/

/-- The bytes that the encoder writes for a command are those that the command set reads it from. -/
def ReadsBack (c : Instr) : Prop :=
  ∀ e ∈ commandBytes c, ∃ read, commandSet e.1 = some (e.2.length, read) ∧ read e.2 = c

theorem ReadsBack.of_none (c : Instr) (h : (commandBytes c).isSome = false) : ReadsBack c := fun e he => by
  rw [Option.mem_def.mp he] at h
  cases h

theorem ReadsBack.of_some {code : Byte} {args : List Byte} {read : List Byte → Instr}
    (hc : commandBytes c = some (code, args)) (hset : commandSet code = some (args.length, read))
    (hread : read args = c) : ReadsBack c := fun e he => by
  cases hc.symm.trans he
  exact ⟨read, hset, hread⟩

theorem readsBack (c : Instr) : ReadsBack c := by
  cases c
  case nop => exact .of_some rfl rfl rfl
  case request owner mask cls code delay interval cap =>
    refine .of_some rfl rfl (congr (congr (congr (congr (congr (congr rfl ?_) rfl) rfl) ?_) ?_) ?_)
    exacts [join16 mask, join32 delay, join16 interval, join32 cap]
  case renew handle code => exact .of_some rfl rfl (congrArg (Instr.renew · code) (join16 handle))
  case release handle => exact .of_some rfl rfl (congrArg Instr.release (join16 handle))
  case query handle => exact .of_some rfl rfl (congrArg Instr.query (join16 handle))
  case domainConfig domain enable runEnable draw settle runDown =>
    exact .of_some rfl rfl (congrArg (Instr.domainConfig domain enable runEnable · settle runDown) (join16 draw))
  case budgetConfig allowance q k tg ta tr =>
    refine .of_some rfl rfl (congr (congr (congr (congr (congr (congrArg _ ?_) ?_) rfl) ?_) ?_) ?_)
    exacts [join16 allowance, join16 q, join16 tg, join16 ta, join16 tr]
  case credit amount => exact .of_some rfl rfl (congrArg Instr.credit (join32 amount))
  case sourceConfig a =>
    refine .of_some rfl rfl ?_
    refine congrArg Instr.sourceConfig ?_
    refine congr (congr (congr (congr (congr rfl ?_) ?_) rfl) rfl) rfl
    · exact congr (congr (congr rfl (join16 a.winA.start)) (join16 a.winA.stop)) rfl
    · exact congr (congr (congr rfl (join16 a.winB.start)) (join16 a.winB.stop)) rfl
  case filterConfig filter enable ident mask dataFlag index value valueMask =>
    refine .of_some rfl rfl (congr (congr (congr (congr (congr (congr rfl ?_) ?_) rfl) rfl) rfl) rfl)
    exacts [join16 ident, join16 mask]
  case templateConfig template mask cls code cap coalesce =>
    refine .of_some rfl rfl (congr (congr (congr (congr (congr rfl ?_) rfl) rfl) ?_) rfl)
    exacts [join16 mask, join32 cap]
  case setClock day minute second => exact .of_some rfl rfl (congrArg (Instr.setClock day · second) (join16 minute))
  case events keep => exact .of_some rfl rfl (congrArg Instr.events (join16 keep))
  case eventEnable levels code =>
    refine .of_some rfl rfl (congrArg (Instr.eventEnable · code) ?_)
    exact (congr (congrArg _ (arg64_put64 _ _)) (arg64_put64 _ [])).trans (append_extract (m := 64) (n := 64) levels)
  case serviceConfig enable service answer =>
    refine .of_some rfl rfl (congr (congr rfl ?_) ?_)
    exacts [join16 service, join16 answer]
  case find | purge | domainStatus | clearFault | master | budgetStatus | classConfig | limits | sourceStatus
      | clockStatus | voltageConfig | currentConfig | calibrate | supplyStatus | modeConfig | parkNow | modeStatus
      | clear => exact .of_some rfl rfl rfl
  all_goals exact .of_none _ (Eq.refl false)

/-- A whole frame of a command, whatever follows it, carries the command. -/
theorem judgeFrame_of_frame {code : Byte} {args : List Byte} {read : List Byte → Instr}
    (hset : commandSet code = some (args.length, read)) (hshort : args.length ≤ 124) (padding : List Byte) :
    judgeFrame (withChecksum (code :: BitVec.ofNat 8 args.length :: args) ++ padding) = .command (read args) := by
  have hlen : (BitVec.ofNat 8 args.length).toNat = args.length := (BitVec.toNat_ofNat ..).trans (Nat.mod_eq_of_lt (by omega))
  obtain ⟨n, hn⟩ : ∃ n, 126 = args.length + 1 + n := ⟨125 - args.length, by omega⟩
  set chk := -byteSum (code :: BitVec.ofNat 8 args.length :: args) with hchk
  have htake : (withChecksum (code :: BitVec.ofNat 8 args.length :: args) ++ padding).take 128
      = code :: BitVec.ofNat 8 args.length :: ((args ++ [chk]) ++ padding.take n) := by
    show code :: BitVec.ofNat 8 args.length :: ((args ++ [chk]) ++ padding).take 126 = _
    rw [hn, show args.length + 1 = (args ++ [chk]).length by simp, List.take_length_add_append]
  rw [judgeFrame_of_take htake, hlen, hset, Option.elim_some, if_neg, if_neg, if_neg (not_not.mpr rfl), List.append_assoc,
    List.take_left']
  · rfl
  · rw [not_not, List.take_left' (by simp)]
    exact byteSum_withChecksum (code :: BitVec.ofNat 8 args.length :: args)
  · simp
    omega

theorem length_le_of_commandSet {code : Byte} {L : Nat} {read : List Byte → Instr} (h : commandSet code = some (L, read)) :
    L ≤ 124 := (codeRow_commandSet code (L, read) h []).2.2

/-- Settles O4: the command set and the encoder are read row by row (`codeRow_commandSet`, `readsBack`), the frame around
them once. -/
theorem framesAndCommandsCorrespond : Obligations.FramesAndCommandsCorrespond := by
  refine ⟨fun c bytes padding h => ?_, fun c bytes h => ?_⟩
  · obtain ⟨e, he, rfl⟩ := Option.map_eq_some_iff.mp h
    obtain ⟨read, hset, rfl⟩ := readsBack c e he
    exact judgeFrame_of_frame hset (length_le_of_commandSet hset) padding
  · obtain ⟨code, len, args, chk, more, read, rfl, hargs, hsum, hset, rfl⟩ := judgeFrame_eq_command h
    refine ⟨code :: len :: args ++ [chk], more, ?_, (List.append_assoc _ [chk] more).symm⟩
    have hlen : BitVec.ofNat 8 args.length = len := by rw [hargs, BitVec.ofNat_toNat, BitVec.setWidth_eq]
    have hchk : -byteSum (code :: len :: args) = chk := by
      rw [byteSum_append] at hsum
      exact (neg_eq_of_add_eq_zero_right hsum).trans (add_zero chk)
    unfold encodeFrame
    rw [commandBytes_read hset, Option.map_some, hlen, withChecksum, hchk]

end Sys2Proof.Machine

/-! ### The laws of the Control Port (R181, R184, R185, R188) -/

namespace Sys2Proof.Machine

variable {c : Instr} {s t u : State} {P : State → Prop}

/-- A law of the CTP, of the level of CSN and of the hold in reset, kept by each of the port's operations. -/
structure PortLaw (P : State → Prop) : Prop where
  congr : ∀ {s t : State}, t.ctp = s.ctp → t.inputs.csn = s.inputs.csn → t.held = s.held → P s → P t
  ready : ∀ {s : State} (st : Status), s.held = false → s.frameOpen = true → P s → P (s.frameReady st)
  passed : ∀ {s : State} {cs : List Instr}, s.held = false → s.frameOpen = true →
    (∀ c ∈ cs, c.portBlock.isSome = true) → P s → P (s.framePassed cs)
  rises : ∀ {s : State}, s.frameOpen = false ∨ s.held = true → P s → P (s.setCsn true)
  taken : ∀ {s : State} (n : Nat) (c : Instr), P s → P (s.takeOutstanding n c)
  begins : ∀ {s : State}, s.held = false → s.ctp.live = true → P s → P ((s.withCtp s.ctp.beginFrame).setCsn false)
  falls : ∀ {s : State}, P s → P (s.setCsn false)
  result : ∀ {s : State} (st : Status) (payload : List Byte), s.ctp.buffer = .pending → P s →
    P (s.withCtp { s.ctp with buffer := .ready st payload, awaited := none })
  off : ∀ {s : State} (live : Bool), P s →
    P (s.withCtp { s.ctp with live := live, frame := none, buffer := .empty, awaited := none })
  reset : ∀ {s : State}, s.ctp = Ctp.reset → P s

theorem otherParts_portBlock (c : Instr) : ∀ x ∈ otherParts c, x.portBlock.isSome = true := by
  intro x hx
  unfold otherParts at hx
  split at hx
  · simp only [List.mem_cons, List.not_mem_nil, or_false] at hx
    rcases hx with rfl | rfl | rfl <;> rfl
  · cases hx

theorem PortLaw.handOut (hP : PortLaw P) (hheld : s.held = false) (hopen : s.frameOpen = true)
    (hc : c.portBlock.isSome = true) (hs : P s) : P (s.handOut c) :=
  hP.passed hheld hopen (fun x hx => by
    rcases List.mem_cons.mp hx with rfl | hx
    · exact hc
    · exact otherParts_portBlock c x hx) hs

theorem PortLaw.portTake (hP : PortLaw P) {n : Nat} {s1 : State} (htake : Takes c s n s1) (hs : P s) : P s1 := by
  rcases portTake_cases htake.2 with ⟨-, rfl⟩ | ⟨-, hopen, -, rfl⟩
  · exact hP.taken _ _ hs
  · exact hP.passed htake.1 hopen (otherParts_portBlock c) hs

theorem PortLaw.portCommand (hP : PortLaw P) {g : State → State × Reply} (hc : c.portBlock.isSome = true)
    (hg : ∀ u, P u → P (g u).1) (hs : P s) (h : portCommand c s g = .next t) : P t := by
  rcases portCommand_eq_next h with ⟨hheld, rfl⟩ | ⟨hheld, -, rfl⟩ | ⟨n, s1, htake, rfl⟩
  · exact hP.rises (.inr hheld) hs
  · rcases portLeft_cases c s with ⟨-, e⟩ | ⟨-, hopen, e⟩ | ⟨-, hopen, e⟩ <;> rw [e]
    · exact hs
    · exact hP.handOut hheld hopen hc hs
    · exact hP.rises (.inl hopen) hs
  · exact hP.congr (s := (g s1).1) rfl rfl rfl (hg _ (hP.portTake htake hs))

theorem PortLaw.portPart (hP : PortLaw P) {f : State → State} (hf : ∀ u, P u → P (f u)) (hs : P s)
    (h : portPart c s f = .next t) : P t := by
  rcases portPart_eq_next h with ⟨-, rfl⟩ | ⟨-, -, rfl⟩ | ⟨s1, htake, rfl⟩
  · exact hs
  · exact hs
  · rcases partTake_cases htake.2 with ⟨n, -, rfl⟩ | ⟨-, rfl⟩
    · exact hf _ (hP.taken _ _ hs)
    · exact hf _ hs

theorem PortLaw.of_sameOutside (hP : PortLaw P) {bs : List Block} (hbs : Block.ctp ∉ bs) (h : SameOutside bs s t)
    (hs : P s) : P t :=
  hP.congr (h.blocks .ctp hbs) (by rw [h.inputs]) h.held hs

theorem PortLaw.execFrameBegin (hP : PortLaw P) (hs : P s) (h : execFrameBegin s = .next t) : P t := by
  unfold Machine.execFrameBegin at h
  split at h
  · cases h
    exact hP.falls hs
  · rename_i hheld
    have hheld : s.held = false := by simpa using hheld
    rw [arrive_next hheld] at h
    cases h
    have htake : P (s.take .frameBegin) := hP.congr (s := s) rfl rfl rfl hs
    split
    · rename_i hlive
      exact hP.begins hheld hlive.1 htake
    · exact hP.falls htake

theorem PortLaw.execFrameRefused (hP : PortLaw P) {bytes : List Byte} (hs : P s)
    (h : execFrameRefused bytes s = .next t) : P t := by
  unfold Machine.execFrameRefused at h
  split at h
  · cases h
    exact hP.rises (.inr ‹_›) hs
  · rename_i hheld
    have hheld : s.held = false := by simpa using hheld
    rw [arrive_next hheld] at h
    cases h
    have htake : P (s.take (.frameRefused bytes)) := hP.congr (s := s) rfl rfl rfl hs
    split
    · rename_i hopen
      split
      · exact hP.ready _ hheld hopen htake
      · rename_i hjudged
        split
        · exact hP.ready _ hheld hopen htake
        · exact hP.handOut hheld hopen (judgeFrame_portBlock hjudged ‹_›) htake
    · rename_i hopen
      exact hP.rises (.inl (by simpa using hopen)) htake

theorem PortLaw.execNop (hP : PortLaw P) (hs : P s) (h : execNop s = .next t) : P t := by
  unfold Machine.execNop at h
  split at h
  · cases h
    exact hP.rises (.inr ‹_›) hs
  · rename_i hheld
    have hheld : s.held = false := by simpa using hheld
    rw [arrive_next hheld] at h
    cases h
    have htake : P (s.take .nop) := hP.congr (s := s) rfl rfl rfl hs
    split
    · exact hP.ready _ hheld ‹_› htake
    · rename_i hopen
      exact hP.rises (.inl (by simpa using hopen)) htake

theorem PortLaw.blind (hP : PortLaw P) {f : State → State} (hf : ∀ u, P u → P (f u)) (hs : P s)
    (h : arrive c s f = .next t ∨ arriveReport c s f = .next t) : P t := by
  have hhand : ∀ cs, P { s with handed := cs } := fun cs => hP.congr (s := s) rfl rfl rfl hs
  rcases h with h | h
  · rcases arrive_eq_next h with ⟨-, rfl⟩ | ⟨-, rfl⟩
    · exact hs
    · exact hf _ (hhand _)
  · rcases arriveReport_eq_next h with ⟨-, rfl⟩ | ⟨-, rfl⟩ | ⟨-, -, ⟨-, rfl⟩ | ⟨-, rfl⟩⟩
    · exact hs
    · exact hf _ (hhand _)
    · exact hs
    · exact hhand _

theorem PortLaw.execCalibrationAbort (hP : PortLaw P) (hs : P s) (h : execCalibrationAbort s = .next t) : P t := by
  have hchoice : P (if s.abortsMeet then s.countChoice else s) := by
    split
    · exact hP.congr (s := s) rfl rfl rfl hs
    · exact hs
  have hctp : Block.ctp ∉ [Block.spm] := of_decide_eq_false rfl
  rcases execCalibrationAbort_cases s with ⟨-, e⟩ | ⟨-, s0, rfl, ⟨-, -, e⟩ | ⟨-, e⟩⟩ <;> rw [e] at h
  · cases h
    exact hs
  · exact hP.blind (fun u hu => hP.of_sameOutside hctp (onlyBlocks_abortCalibration u).toSameOutside hu) hchoice (.inl h)
  · refine hP.portPart (fun u hu => ?_) hchoice h
    obtain ⟨marks, hkept⟩ := abortByClear_sameOutside u (Ctp.partSerial _ .calibrationAbort)
    exact hP.of_sameOutside hctp hkept (hP.congr (s := u) rfl rfl rfl hu)

/-- A law of the port is kept by a command that neither moves the port nor carries an edge of CSN. -/
theorem PortLaw.of_kept (hP : PortLaw P) (hm : Block.ctp ∉ c.moves) (hcsn : c.movesCsn = false) (hs : P s)
    (h : exec c s = .next t) : P t := by
  have hkept := exec_kept h
  refine hP.congr (hkept.blocks .ctp hm) (hkept.csn hcsn) (hkept.held ?_ ?_) hs
  all_goals
    rintro rfl
    exact hm (of_decide_eq_true rfl)

/-- A law of the port is kept by every command. -/
theorem PortLaw.exec (hP : PortLaw P) (c : Instr) : Keeps P c := by
  intro s t hs h
  cases exec_row c
  case arrives _ _ _ hp =>
    obtain ⟨-, hcsn, hctp⟩ := plain_eq_true hp
    exact hP.of_kept hctp hcsn hs h
  case reports _ _ _ hp _ =>
    obtain ⟨-, hcsn, hctp⟩ := plain_eq_true hp
    exact hP.of_kept hctp hcsn hs h
  case port g row _ hport _ _ =>
    rw [row.exec_eq] at h
    exact hP.portCommand hport (fun u hu => hP.of_sameOutside row.ctp (row.frame u).toSameOutside hu) hs h
  case powerOnReset | supplyBelowResetThreshold =>
    cases h
    exact hP.reset rfl
  case frameBegin => exact hP.execFrameBegin hs h
  case frameRefused => exact hP.execFrameRefused hs h
  case nop => exact hP.execNop hs h
  case blockResult serial st payload =>
    have h : execBlockResult serial st payload s = .next t := h
    refine hP.blind (fun u hu => ?_) hs (.inl h)
    split
    · rename_i hpending
      exact hP.result _ _ hpending.2 hu
    · exact hu
  case portReset =>
    have h : execPortReset s = .next t := h
    exact hP.blind (fun u hu => hP.off false hu) hs (.inr h)
  case portLive =>
    have h : execPortLive s = .next t := h
    exact hP.blind (fun u hu => hP.off true hu) hs (.inr h)
  case clearFlags =>
    have h : execClearFlags s = .next t := h
    refine hP.portPart (fun u hu => ?_) hs h
    obtain ⟨marks, hkept⟩ := clearFlags_takeEnded_sameOutside u (s.ctp.partSerial .clearFlags)
    exact hP.of_sameOutside (of_decide_eq_false rfl) hkept (hP.congr (s := u) rfl rfl rfl hu)
  case clearService =>
    have h : execClearService s = .next t := h
    refine hP.portPart (fun u hu => ?_) hs h
    exact hP.congr (s := u) rfl rfl rfl hu
  case calibrationAbort => exact hP.execCalibrationAbort hs h
  case pinLevelChange | faultReport | ignChange | flagSetting | handOver =>
    exact hP.of_kept (of_decide_eq_false rfl) rfl hs h

/-- A law of the port is kept by every step. -/
theorem PortLaw.step (hP : PortLaw P) (s t : State) (hs : P s) (h : step s = .next t) : P t :=
  step_keeps (fun u _ hu => hP.congr (s := u) rfl rfl rfl hu) hP.exec (fun u hu => by
    obtain ⟨n, hkept⟩ := crystalPeriod_sameOutside u
    exact hP.of_sameOutside (of_decide_eq_false rfl) hkept (hP.congr (s := u) rfl rfl rfl hu)) s t hs h

/-! #### The port's own law -/

/-- A frame that is open has a live port, and with a begun frame CSN low. -/
theorem State.frameOpen_eq_true : s.frameOpen = true ↔ s.ctp.live = true ∧ (s.ctp.frame.isSome = true ∨ s.inputs.csn = true) := by
  simp [State.frameOpen]

theorem Ctp.withFrame_eq (p : Ctp) : ∃ frame inShift, p.withFrame = { p with frame := frame, inShift := inShift } := by
  unfold Ctp.withFrame
  split
  · exact ⟨p.frame, p.inShift, rfl⟩
  · exact ⟨_, _, rfl⟩

theorem portLaw_portSound : PortLaw portSound where
  congr hctp hcsn hheld hs := by
    obtain ⟨h1, h2, h3, h4, h5⟩ := hs
    constructor <;> simp only [hctp, hcsn, hheld]
    exacts [h1, h2, h3, h4, h5]
  ready {s} st _ hopen hs := by
    obtain ⟨frame, inShift, e⟩ := s.ctp.withFrame_eq
    have hlive := (State.frameOpen_eq_true.mp hopen).1
    refine ⟨?_, ?_, ?_, ?_, ?_⟩ <;>
      simp only [State.frameReady, State.setCsn, Ctp.endFrameReady, e]
    · simp
    · simp
    · simp [hlive]
    · simp
    · exact hs.outstanding
  passed {s cs} _ hopen _ hs := by
    obtain ⟨frame, inShift, e⟩ := s.ctp.withFrame_eq
    have hlive := (State.frameOpen_eq_true.mp hopen).1
    refine ⟨?_, ?_, ?_, ?_, ?_⟩ <;>
      simp only [State.framePassed, State.setCsn, Ctp.endFramePending, e]
    · simp
    · simp
    · simp [hlive]
    · rintro n ⟨⟩
      exact Nat.lt_succ_self _
    · intro x hx
      rcases List.mem_append.mp hx with hx | hx
      · exact Nat.lt_succ_of_lt (hs.outstanding x hx)
      · obtain ⟨y, -, rfl⟩ := List.mem_map.mp hx
        exact Nat.lt_succ_self _
  rises {s} hshut hs := by
    refine ⟨hs.awaited, fun hframe => ?_, hs.dead, hs.serial, hs.outstanding⟩
    obtain ⟨hheld, hlive, -, -⟩ := hs.frame hframe
    rcases hshut with hshut | hshut
    · rw [State.frameOpen_eq_true.mpr ⟨hlive, .inl hframe⟩] at hshut
      cases hshut
    · rw [hheld] at hshut
      cases hshut
  taken n c hs := ⟨hs.awaited, hs.frame, hs.dead, hs.serial, fun e he => hs.outstanding e (List.mem_of_mem_erase he)⟩
  begins hheld hlive hs := ⟨hs.awaited, fun _ => ⟨hheld, hlive, rfl, rfl⟩, hs.dead, hs.serial, hs.outstanding⟩
  falls hs := by
    refine ⟨hs.awaited, fun hframe => ?_, hs.dead, hs.serial, hs.outstanding⟩
    obtain ⟨hheld, hlive, -, hshift⟩ := hs.frame hframe
    exact ⟨hheld, hlive, rfl, hshift⟩
  result {s} st payload hpending hs := by
    refine ⟨by simp, hs.frame, fun hlive => ?_, by simp, hs.outstanding⟩
    have := hs.dead hlive
    rw [hpending] at this
    cases this
  off live hs := ⟨by simp, by simp, fun _ => rfl, by simp, hs.outstanding⟩
  reset h := by
    constructor <;> rw [h] <;> simp [Ctp.reset]

/-- What waits for its block was handed out by the CTP, which carries no application. -/
def outstandingSound (s : State) : Prop := ∀ e ∈ s.ctp.outstanding, carriesTemplate e.2

/-- Only an application can fail to carry a template. -/
theorem application_or_carriesTemplate (c : Instr) :
    (∃ source index x, c = .application source index x) ∨ carriesTemplate c := by
  cases c
  case application source index x => exact .inl ⟨source, index, x, rfl⟩
  all_goals exact .inr trivial

theorem carriesTemplate_of_portBlock (h : c.portBlock.isSome = true) : carriesTemplate c := by
  rcases application_or_carriesTemplate c with ⟨source, index, x, rfl⟩ | hc
  · exact absurd h Bool.false_ne_true
  · exact hc

theorem carriesTemplate_of_not_watched (h : watched c = false) : carriesTemplate c := by
  rcases application_or_carriesTemplate c with ⟨source, index, x, rfl⟩ | hc
  · exact absurd h.symm Bool.false_ne_true
  · exact hc

theorem portLaw_outstandingSound : PortLaw outstandingSound where
  congr hctp _ _ hs := by
    unfold outstandingSound
    rw [hctp]
    exact hs
  ready {s} st _ _ hs := by
    obtain ⟨frame, inShift, e⟩ := s.ctp.withFrame_eq
    simp only [outstandingSound, State.frameReady, State.setCsn, Ctp.endFrameReady, e]
    exact hs
  passed {s cs} _ _ hcs hs x hx := by
    rcases List.mem_append.mp hx with hx | hx
    · exact hs x hx
    · obtain ⟨y, hy, rfl⟩ := List.mem_map.mp hx
      exact carriesTemplate_of_portBlock (hcs y hy)
  rises _ hs := hs
  taken n c hs x hx := hs x (List.mem_of_mem_erase hx)
  begins _ _ hs := hs
  falls hs := hs
  result _ _ _ hs := hs
  off _ hs := hs
  reset h := by
    unfold outstandingSound
    rw [h]
    simp [Ctp.reset]

end Sys2Proof.Machine

/-! ### The law of the hold record (R2 to R4, R68) -/

namespace Sys2Proof.Machine

variable {c : Instr} {s t u v : State} {tau : Tau} {h h' x : Hold}

/-! #### A sound record by its parts -/

/-- What a sound record says of the fields that its state does not move. -/
structure formSound (h : Hold) : Prop where
  mask : h.mask ≠ 0
  interval : ∀ m, h.interval = some m → 1 ≤ m ∧ m ≤ 10080 ∧ h.code.val ≠ 0
  cap : ∀ n, h.cap = some n → 1 ≤ n ∧ n ≤ Config.counterMax
  network : h.owner.val ≤ 31 → h.interval = none ∧ h.cap = none
  host : h.owner.val = 47 → h.mask = 1 ∧ h.cls.val = 6 ∧ h.interval = none ∧ h.cap = none
  source : 48 ≤ h.owner.val → h.interval = none
  template : h.template.isSome ↔ 48 ≤ h.owner.val

/-- The charge of a sound record: within its counter, and below the cap. -/
structure chargeSound (h : Hold) : Prop where
  counter : h.charge ≤ Config.counterMax
  cap : ∀ n, h.cap = some n → h.charge < n

/-- The timers of a hold that runs, ACTIVE or SUSPENDED (R3). -/
def runsSound (h : Hold) : Prop :=
  h.countdown = none
    ∧ (h.code.val = 0 → h.remaining = none)
    ∧ (h.code.val ≠ 0 → ∃ n, h.remaining = some n ∧ 1 ≤ n ∧ n ≤ 86400)
    ∧ h.sinceStart.isSome = h.interval.isSome
    ∧ ∀ n, h.sinceStart = some n → n ≤ Config.counterMax

/-- The timers of a hold that waits for its start (R3, R4). -/
def waitsSound (h : Hold) : Prop :=
  (∃ n, h.countdown = some n ∧ 1 ≤ n ∧ n ≤ 604800) ∧ h.remaining = none ∧ h.sinceStart = none
    ∧ 32 ≤ h.owner.val ∧ h.owner.val ≤ 46

theorem holdSound_iff :
    holdSound h ↔ formSound h ∧ chargeSound h
      ∧ match h.state with
        | .scheduled => waitsSound h ∧ h.reason = none
        | .active => runsSound h ∧ h.reason = none
        | .suspended => runsSound h ∧ h.reason.isSome = true := by
  constructor
  · rintro ⟨hmask, htimers, hreason, hinterval, hcap, hcharge, hsched, hnet, hhost, hsource, htemplate⟩
    refine ⟨⟨hmask, hinterval, fun n e => ⟨(hcap n e).1, (hcap n e).2.1⟩, hnet, hhost, hsource, htemplate⟩,
      ⟨hcharge, fun n e => (hcap n e).2.2⟩, ?_⟩
    unfold timersSound at htimers
    cases hstate : h.state <;> simp only [hstate] at htimers hreason hsched ⊢
    · obtain ⟨h1, h2, h3⟩ := htimers
      exact ⟨⟨h1, h2, h3, hsched trivial⟩, by simpa using hreason⟩
    · exact ⟨htimers, by simpa using hreason⟩
    · exact ⟨htimers, by simpa using hreason⟩
  · rintro ⟨⟨hmask, hinterval, hcap, hnet, hhost, hsource, htemplate⟩, ⟨hcharge, hbelow⟩, hcase⟩
    cases hstate : h.state <;> simp only [hstate] at hcase <;> obtain ⟨htimers, hreason⟩ := hcase
    · obtain ⟨h1, h2, h3, h4⟩ := htimers
      refine ⟨hmask, ?_, ?_, hinterval, fun n e => ⟨(hcap n e).1, (hcap n e).2, hbelow n e⟩, hcharge,
        fun _ => h4, hnet, hhost, hsource, htemplate⟩
      · simp only [timersSound, hstate]
        exact ⟨h1, h2, h3⟩
      · simp [hstate, hreason]
    all_goals
      refine ⟨hmask, ?_, ?_, hinterval, fun n e => ⟨(hcap n e).1, (hcap n e).2, hbelow n e⟩, hcharge,
        (fun e => by rw [hstate] at e; cases e), hnet, hhost, hsource, htemplate⟩
      · simp only [timersSound, hstate]
        exact htimers
      · simp [hstate, hreason]

theorem holdSound.form (hs : holdSound h) : formSound h := (holdSound_iff.mp hs).1

theorem holdSound.charged (hs : holdSound h) : chargeSound h := (holdSound_iff.mp hs).2.1

theorem holdSound.waits (hs : holdSound h) (e : h.state = .scheduled) : waitsSound h ∧ h.reason = none := by
  have hcase := (holdSound_iff.mp hs).2.2
  rwa [e] at hcase

theorem holdSound.runs (hs : holdSound h) (e : h.state ≠ .scheduled) : runsSound h := by
  have hcase := (holdSound_iff.mp hs).2.2
  cases hstate : h.state <;> simp only [hstate] at hcase
  · exact absurd hstate e
  · exact hcase.1
  · exact hcase.1

theorem holdSound.reason_iff (hs : holdSound h) : h.reason.isSome = true ↔ h.state = .suspended := hs.reason

theorem holdSound_waiting (hform : formSound h) (hcharge : chargeSound h) (hstate : h.state = .scheduled)
    (hwaits : waitsSound h) (hreason : h.reason = none) : holdSound h :=
  holdSound_iff.mpr ⟨hform, hcharge, by rw [hstate]; exact ⟨hwaits, hreason⟩⟩

theorem holdSound_active (hform : formSound h) (hcharge : chargeSound h) (hruns : runsSound h) :
    holdSound h.activated :=
  holdSound_iff.mpr ⟨⟨hform.1, hform.2, hform.3, hform.4, hform.5, hform.6, hform.7⟩, ⟨hcharge.1, hcharge.2⟩, hruns, rfl⟩

theorem holdSound_suspended (hform : formSound h) (hcharge : chargeSound h) (hruns : runsSound h) (r : SuspendReason) :
    holdSound (h.suspendedFor r) :=
  holdSound_iff.mpr ⟨⟨hform.1, hform.2, hform.3, hform.4, hform.5, hform.6, hform.7⟩, ⟨hcharge.1, hcharge.2⟩, hruns, rfl⟩

/-! #### The moves keep a record sound -/

theorem duration_zero {code : Fin 166} (h : code.val = 0) : duration code = none := if_pos h

theorem duration_bounds {code : Fin 166} (h : code.val ≠ 0) : ∃ n, duration code = some n ∧ 1 ≤ n ∧ n ≤ 86400 := by
  unfold duration
  rw [if_neg h]
  split
  · exact ⟨_, rfl, by omega, by omega⟩
  · split <;> exact ⟨_, rfl, by omega, by omega⟩

theorem runsSound_begun (h : Hold) : runsSound h.begun := by
  refine ⟨rfl, duration_zero, duration_bounds, ?_, ?_⟩ <;> simp only [Hold.begun]
  · cases h.interval <;> rfl
  · intro n e
    obtain ⟨m, -, rfl⟩ := Option.map_eq_some_iff.mp e
    exact Nat.zero_le _

theorem SameFields.form (e : SameFields h x) (hcode : x.code = h.code) (hs : formSound h) : formSound x := by
  obtain ⟨e1, e2, e3, e4, e5, e6⟩ := e
  constructor <;> simp only [e1, e2, e3, e4, e5, e6, hcode]
  exacts [hs.mask, hs.interval, hs.cap, hs.network, hs.host, hs.source, hs.template]

theorem secondHold_code (hx : secondHold h = some x) : x.code = h.code := by
  rcases secondHold_cases hx with ⟨rfl, -⟩ | ⟨m, -, -, rfl⟩ <;> exact countHold_code h

theorem countHold_charge (h : Hold) : (countHold h).charge = h.charge := by
  unfold countHold
  split
  · rfl
  all_goals split <;> rfl

theorem countHold_reason (h : Hold) : (countHold h).reason = h.reason := by
  unfold countHold
  split
  · rfl
  all_goals split <;> rfl

theorem chargeSound_countHold (hs : chargeSound h) : chargeSound (countHold h) := by
  obtain ⟨h1, h2⟩ := hs
  constructor <;> rw [countHold_charge]
  · exact h1
  · rwa [(sameFields_countHold h).cap]

theorem formSound_countHold (hs : formSound h) : formSound (countHold h) :=
  (sameFields_countHold h).form (countHold_code h) hs

/-- A repeating hold that expires waits for its next start on the grid (R111). -/
theorem holdSound_grid (hs : holdSound h) {m : Nat} (hm : h.interval = some m) (since : Nat) :
    holdSound ((countHold h).waiting (gridCountdown m since)) := by
  have hform := formSound_countHold hs.form
  obtain ⟨hm1, hm2, -⟩ := hs.form.interval m hm
  have hrepeats : h.interval ≠ none := by simp [hm]
  refine holdSound_waiting ⟨hform.1, hform.2, hform.3, hform.4, hform.5, hform.6, hform.7⟩
    ⟨(chargeSound_countHold hs.charged).1, (chargeSound_countHold hs.charged).2⟩ rfl
    ⟨⟨_, rfl, ?_, ?_⟩, rfl, rfl, ?_⟩ rfl
  · have := Nat.mod_lt since (show m * 60 > 0 by omega)
    unfold gridCountdown
    omega
  · unfold gridCountdown
    omega
  · show 32 ≤ (countHold h).owner.val ∧ (countHold h).owner.val ≤ 46
    rw [(sameFields_countHold h).owner]
    have h1 : ¬ h.owner.val ≤ 31 := fun e => hrepeats (hs.form.network e).1
    have h2 : h.owner.val ≠ 47 := fun e => hrepeats (hs.form.host e).2.2.1
    have h3 : ¬ 48 ≤ h.owner.val := fun e => hrepeats (hs.form.source e)
    omega

/-- A hold that a second leaves running, or waiting with time left. -/
theorem holdSound_countHold (hs : holdSound h) (hexp : isExpired (countHold h) = false)
    (hdue : isDue (countHold h) = false) : holdSound (countHold h) := by
  refine holdSound_iff.mpr ⟨formSound_countHold hs.form, chargeSound_countHold hs.charged, ?_⟩
  have hcase := (holdSound_iff.mp hs).2.2
  have hstate := countHold_state h
  cases e : h.state <;> rw [e] at hstate <;> simp only [e] at hcase <;> simp only [hstate] <;>
    obtain ⟨htimers, hreason⟩ := hcase
  · obtain ⟨⟨n, hn, h1, h2⟩, h3, h4, h5⟩ := htimers
    have hcount : countHold h = { h with countdown := some (n - 1) } := by
      simp [countHold, e, hn]
    rw [hcount] at hdue ⊢
    have hne : n - 1 ≠ 0 := by simpa [isDue, e] using hdue
    exact ⟨⟨⟨n - 1, rfl, by omega, by omega⟩, h3, h4, h5⟩, hreason⟩
  all_goals
    rw [countHold_reason]
    refine ⟨?_, hreason⟩
    obtain ⟨h1, h2, h3, h4, h5⟩ := htimers
    by_cases hcode : h.code.val = 0
    · have hcount : countHold h = h := by simp [countHold, e, hcode]
      rw [hcount]
      exact ⟨h1, h2, h3, h4, h5⟩
    · obtain ⟨n, hn, hn1, hn2⟩ := h3 hcode
      have hcount : countHold h =
          { h with remaining := some (n - 1), sinceStart := h.sinceStart.map fun x => satAdd x 1 } := by
        simp [countHold, e, hcode, hn]
      rw [hcount] at hexp ⊢
      have hne : n - 1 ≠ 0 := by simpa [isExpired, e] using hexp
      refine ⟨h1, fun e => absurd e hcode, fun _ => ⟨n - 1, rfl, by omega, by omega⟩, ?_, fun k hk => ?_⟩
      · rw [Option.isSome_map]
        exact h4
      · obtain ⟨x, -, rfl⟩ := Option.map_eq_some_iff.mp hk
        exact satAdd_le x 1

/-- A hold that begins to run under its stored fields, with nothing charged yet. -/
theorem chargeSound_zero (hs : formSound h) (e : h.charge = 0) : chargeSound h :=
  ⟨e ▸ Nat.zero_le _, fun n hn => e ▸ (hs.cap n hn).1⟩

theorem formSound_begun (hs : formSound h) : formSound { h.begun with charge := 0 } :=
  ⟨hs.1, hs.2, hs.3, hs.4, hs.5, hs.6, hs.7⟩

theorem HoldMove.holdSound (hm : HoldMove tau h h') (hs : holdSound h) : holdSound h' := by
  have hform := hs.form
  have hcharge := hs.charged
  have hsecond : ∀ x, secondHold h = some x → formSound x := fun x hx =>
    (sameFields_secondHold hx).form (secondHold_code hx) hform
  cases hm
  case kept => exact hs
  case renewed code hstate hcode =>
    have hrun : h.state ≠ .scheduled := hstate.elim id fun hown e => by
      have := (hs.waits e).1.2.2.2.2
      omega
    have hcode : ∀ m, h.interval = some m → code.val ≠ 0 := fun m hm => hcode.elim (fun hc => hc (by simp [hm]))
      fun hown => by
        have : h.interval = none := by
          rcases Nat.lt_or_eq_of_le hown with hlt | heq
          · exact hform.source hlt
          · exact (hform.host heq.symm).2.2.1
        rw [this] at hm
        cases hm
    obtain ⟨hr1, -, -, hr4, hr5⟩ := hs.runs hrun
    have hcase := (holdSound_iff.mp hs).2.2
    refine holdSound_iff.mpr ⟨⟨hform.1, fun m hm => ⟨(hform.2 m hm).1, (hform.2 m hm).2.1, hcode m hm⟩, hform.3,
      hform.4, hform.5, hform.6, hform.7⟩, ⟨hcharge.1, hcharge.2⟩, ?_⟩
    have hruns : runsSound (h.renewed code) := ⟨hr1, duration_zero, duration_bounds, hr4, hr5⟩
    show match h.state with
      | .scheduled => _
      | .active => _
      | .suspended => _
    cases e : h.state <;> simp only [e] at hcase ⊢
    · exact absurd e hrun
    · exact ⟨hruns, hcase.2⟩
    · exact ⟨hruns, hcase.2⟩
  case recoded code hstate hcode =>
    obtain ⟨hwaits, hreason⟩ := hs.waits hstate
    exact holdSound_waiting ⟨hform.1, fun m hm => ⟨(hform.2 m hm).1, (hform.2 m hm).2.1, hcode (Option.isSome_of_eq_some hm)⟩, hform.3,
      hform.4, hform.5, hform.6, hform.7⟩ ⟨hcharge.1, hcharge.2⟩ hstate hwaits hreason
  case counted hx hdue =>
    rcases secondHold_cases hx with ⟨rfl, hexp⟩ | ⟨m, -, hm, rfl⟩
    · exact holdSound_countHold hs hexp hdue
    · exact holdSound_grid hs hm _
  case waits m hexp hm => exact holdSound_grid hs ((sameFields_countHold h).interval ▸ hm) _
  case begins x hx hdue hfloor =>
    have hb := formSound_begun (hsecond x hx)
    exact holdSound_active hb (chargeSound_zero hb rfl) (runsSound_begun x)
  case fails x hx hdue =>
    have hb := formSound_begun (hsecond x hx)
    exact holdSound_suspended hb (chargeSound_zero hb rfl) (runsSound_begun x) _
  case resumed hstate hfloor => exact holdSound_active hform hcharge (hs.runs (by rw [hstate]; decide))
  case suspended hstate => exact holdSound_suspended hform hcharge (hs.runs (by rw [hstate]; decide)) _
  case charged charge hle hcap =>
    have hbelow : ∀ n, h.cap = some n → charge < n := fun n hn => by
      simpa [capReached, hn] using hcap
    have hcounter : charge ≤ Config.counterMax := hle.elim (fun e => e ▸ hcharge.1) id
    exact holdSound_iff.mpr ⟨⟨hform.1, hform.2, hform.3, hform.4, hform.5, hform.6, hform.7⟩, ⟨hcounter, hbelow⟩,
      (holdSound_iff.mp hs).2.2⟩

/-! #### A hold that is made is sound -/

/-- The record of a REQUEST before its state is given. -/
def RequestArgs.form (a : RequestArgs) : Hold :=
  { Hold.fresh (Fin.ofNat 64 a.owner) a.mask (Fin.ofNat 8 a.cls) a.code with interval := a.interval, cap := a.cap }

theorem RequestArgs.hold_eq (a : RequestArgs) :
    a.hold = match a.delay with
      | none => a.form.begun
      | some d => a.form.waiting d := rfl

theorem RequestArgs.lawful.form {a : RequestArgs} (ha : a.lawful) :
    formSound a.form ∧ a.form.owner.val = a.owner := by
  have hle := ha.owner
  have howner : a.form.owner.val = a.owner := by
    simp only [RequestArgs.form, Hold.fresh, Fin.ofNat_eq_cast, Fin.val_natCast]
    omega
  have hnetwork : a.owner ≤ 31 → a.interval = none ∧ a.cap = none := fun hlow => by
    refine ⟨Option.eq_none_iff_forall_ne_some.mpr fun m hm => ?_, Option.eq_none_iff_forall_ne_some.mpr fun n hn => ?_⟩
    · have := (ha.interval m hm).1
      omega
    · have := (ha.cap n hn).1
      omega
  refine ⟨⟨ha.mask, fun m hm => ?_, fun n hn => (ha.cap n hn).2, fun e => hnetwork (howner ▸ e), fun e => ?_, fun e => ?_,
    ?_⟩, howner⟩
  · have hm : a.interval = some m := hm
    exact ⟨(ha.interval m hm).2.1, (ha.interval m hm).2.2, ha.code (by simp [hm])⟩
  · omega
  · omega
  · exact ⟨fun e => (by cases e), fun e => by omega⟩

theorem formSound.begun (hs : formSound h) : formSound h.begun := ⟨hs.1, hs.2, hs.3, hs.4, hs.5, hs.6, hs.7⟩

theorem holdSound_requested {a : RequestArgs} (ha : a.lawful) : holdSound a.hold := by
  obtain ⟨hform, howner⟩ := ha.form
  rw [RequestArgs.hold_eq]
  cases hdelay : a.delay with
  | none => exact holdSound_active hform.begun (chargeSound_zero hform.begun rfl) (runsSound_begun _)
  | some d =>
    obtain ⟨h1, h2, h3⟩ := ha.delay d hdelay
    have hw : formSound (a.form.waiting d) := ⟨hform.1, hform.2, hform.3, hform.4, hform.5, hform.6, hform.7⟩
    refine holdSound_waiting hw (chargeSound_zero hw rfl) rfl ⟨⟨d, rfl, h2, h3⟩, rfl, rfl, ?_⟩ rfl
    show 32 ≤ a.form.owner.val ∧ a.form.owner.val ≤ 46
    rw [howner]
    exact ⟨h1, ha.owner⟩

theorem Template.wf_iff {x : Template} :
    x.wf = true ↔ x.mask ≠ 0 ∧ ∀ n, x.cap = some n → 1 ≤ n ∧ n ≤ Config.counterMax := by
  unfold Template.wf
  rw [Bool.and_eq_true, bne_iff_ne]
  cases x.cap <;> simp

theorem formSound_createdBy (hc : createdBy c h) (hwf : carriesTemplate c) : formSound h ∧ h.charge = 0 := by
  rcases hc with ⟨source, index, x, rfl, rfl⟩ | ⟨code, rfl, rfl⟩
  · obtain ⟨hmask, hcap⟩ := Template.wf_iff.mp hwf
    have howner : (templateHold source index x).owner.val = 48 + source.val := rfl
    exact ⟨⟨hmask, fun m hm => (by cases hm), hcap, fun e => by omega, fun e => by omega, fun _ => rfl,
      fun _ => by omega, fun _ => rfl⟩, rfl⟩
  · have hmask : (1 : DomainSet) ≠ 0 := by decide
    have howner : ¬ 48 ≤ (47 : Fin 64).val := by decide
    exact ⟨⟨hmask, fun m hm => (by cases hm), fun n hn => (by cases hn), fun _ => ⟨rfl, rfl⟩,
      fun _ => ⟨rfl, rfl, rfl, rfl⟩, fun _ => rfl, fun e => (by cases e), fun e => absurd e howner⟩, rfl⟩

theorem HoldMade.holdSound (hm : HoldMade c tau h) (hwf : carriesTemplate c) : holdSound h := by
  have hmade : ∀ g, createdBy c g → formSound g.begun ∧ chargeSound g.begun := fun g hc =>
    have hg := formSound_createdBy hc hwf
    ⟨hg.1.begun, chargeSound_zero hg.1.begun hg.2⟩
  cases hm
  case requested a ha _ => exact holdSound_requested ha
  case admitted g hc _ => exact holdSound_active (hmade g hc).1 (hmade g hc).2 (runsSound_begun g)
  case refused g hc => exact holdSound_suspended (hmade g hc).1 (hmade g hc).2 (runsSound_begun g) _

end Sys2Proof.Machine

/-! ### Every step keeps the hold table sound (R2 to R4, R8, R68, R141) -/

namespace Sys2Proof.Machine

variable {c : Instr} {s t u v : State} {tau : Tau} {h h' x : Hold}

/-! #### One hold of owner 47 (R8) -/

/-- An owner has at most one hold where no two slots hold one of it. -/
theorem Htm.ownerCount_le_one {t : Htm} {o : Fin 64} :
    t.ownerCount o ≤ 1 ↔ ∀ i j : Fin 48, ∀ g g', (t.slots[i]'i.2).hold = some g → (t.slots[j]'j.2).hold = some g' →
      g.owner = o → g'.owner = o → i = j := by
  unfold Htm.ownerCount Htm.countWhere
  have hnodup : allSlots.Nodup := List.nodup_finRange 48
  rw [List.countP_eq_length_filter, ← List.toFinset_card_of_nodup (hnodup.filter _), Finset.card_le_one]
  simp only [List.mem_toFinset, List.mem_filter, mem_allSlots, true_and]
  have hmem : ∀ i : Fin 48, ((t.slots[i]'i.2).hold.map fun h => decide (h.owner = o)).getD false = true
      ↔ ∃ g, (t.slots[i]'i.2).hold = some g ∧ g.owner = o := fun i => by
    cases (t.slots[i]'i.2).hold <;> simp
  constructor
  · intro hone i j g g' hi hj ho ho'
    exact hone i ((hmem i).mpr ⟨g, hi, ho⟩) j ((hmem j).mpr ⟨g', hj, ho'⟩)
  · intro hone i hi j hj
    obtain ⟨g, hg, ho⟩ := (hmem i).mp hi
    obtain ⟨g', hg', ho'⟩ := (hmem j).mp hj
    exact hone i j g g' hg hg' ho ho'

theorem HoldsMove.host (hm : HoldsMove c s t) (hs : s.htm.ownerCount 47 ≤ 1) : t.htm.ownerCount 47 ≤ 1 := by
  obtain ⟨made, hmove, hmade⟩ := hm
  rw [Htm.ownerCount_le_one] at hs ⊢
  intro i j g g' hi hj ho ho'
  rcases hmove i g hi with ⟨x, hx, hxg⟩ | hi <;> rcases hmove j g' hj with ⟨y, hy, hyg⟩ | hj
  · exact hs i j x y hx hy (hxg.sameFields.owner ▸ ho) (hyg.sameFields.owner ▸ ho')
  · exact absurd (hxg.sameFields.owner ▸ ho) ((hmade j g' hj).2 ho' i x hx)
  · exact absurd (hyg.sameFields.owner ▸ ho') ((hmade i g hi).2 ho j y hy)
  · rw [hi] at hj
    cases hj
    rfl

theorem HoldsMove.holds (hm : HoldsMove c s t) (hwf : carriesTemplate c)
    (hs : ∀ i : Fin 48, ∀ h, (s.htm.slots[i]'i.2).hold = some h → holdSound h) :
    ∀ i : Fin 48, ∀ h, (t.htm.slots[i]'i.2).hold = some h → holdSound h := by
  obtain ⟨made, hmove, hmade⟩ := hm
  intro i h' hi
  rcases hmove i h' hi with ⟨h, hh, hm⟩ | hm
  · exact hm.holdSound (hs i h hh)
  · exact (hmade i h' hm).1.holdSound hwf

/-! #### The table, its limits and the templates -/

def limitsSound (t : Htm) : Prop :=
  (1 ≤ t.netLimit ∧ t.netLimit ≤ 48) ∧ (1 ≤ t.ctlLimit ∧ t.ctlLimit ≤ 48) ∧ (1 ≤ t.srcLimit ∧ t.srcLimit ≤ 48)

theorem limitsSound_congr {t u : Htm} (h : SameLimits t u) (hs : limitsSound t) : limitsSound u := by
  rw [h]
  exact hs

theorem limitOf_bounds (b : Byte) : 1 ≤ limitOf b ∧ limitOf b ≤ 48 := by
  unfold limitOf
  omega

theorem limitsSound_free : limitsSound Htm.free := by
  unfold limitsSound
  decide

theorem exec_limitsSound (hs : limitsSound s.htm) (h : exec c s = .next t) : limitsSound t.htm := by
  by_cases hpower : c = .powerOnReset ∨ c = .supplyBelowResetThreshold
  · rcases hpower with rfl | rfl <;> cases h
    · exact limitsSound_congr (t := Htm.free) rfl limitsSound_free
    · exact limitsSound_free
  · rw [not_or] at hpower
    by_cases hlimits : ∃ network control source, c = .limits network control source
    · obtain ⟨network, control, source, rfl⟩ := hlimits
      have hblind : BlindToPort fun s => limitsSound s.htm := ⟨fun _ _ _ h => h, fun _ _ h => h⟩
      exact portCommand_keeps hblind (fun u _ _ => ⟨limitOf_bounds _, limitOf_bounds _, limitOf_bounds _⟩) hs h
    · exact limitsSound_congr
        (exec_limitsKept hpower.1 hpower.2 (fun n k o e => hlimits ⟨n, k, o, e⟩) h) hs

def templatesSound (s : State) : Prop := ∀ i : Fin 16, (s.tpe.templates[i]'i.2).wf = true

theorem templatesSound_of_reset (h : s.tpe = Tpe.reset) : templatesSound s := by
  intro i
  have hslot : Tpe.reset.templates[i]'i.2 = templateReset := by simp [Tpe.reset]
  rw [h, hslot]
  rfl

theorem wf_templateOf {mask : BitVec 16} {cls code : Byte} {cap : BitVec 32} {co : Byte} {x : Template}
    (h : templateOf mask cls code cap co = some x) : x.wf = true := by
  unfold templateOf at h
  split at h
  · split at h
    · cases h
    · rename_i hmask
      cases h
      refine Template.wf_iff.mpr ⟨hmask, fun n hn => ?_⟩
      simp only [capOf, presentOf] at hn
      split at hn
      · cases hn
      · cases hn
        have := cap.isLt
        exact ⟨by omega, by simp only [Config.counterMax]; omega⟩
  · cases h

theorem exec_templatesSound (c : Instr) : Keeps templatesSound c := by
  have kept := Keeps.of_block (b := .tpe) (P := templatesSound) fun s t e hs => by
    unfold templatesSound
    rw [show t.tpe = s.tpe from e]
    exact hs
  have hblind : BlindToPort templatesSound := ⟨fun _ _ _ h => h, fun _ _ h => h⟩
  cases c
  case powerOnReset | supplyBelowResetThreshold =>
    intro s t hs h
    cases h
    exact templatesSound_of_reset rfl
  case templateConfig =>
    intro s t hs h
    change execTemplateConfig _ _ _ _ _ _ s = _ at h
    refine portCommand_keeps hblind (fun u _ hu => ?_) hs h
    split
    · rename_i i x _ hx
      intro j
      show ((u.tpe.templates.set i x i.2)[j.val]'j.2).wf = true
      rw [Vector.getElem_set]
      split
      · exact wf_templateOf hx
      · exact hu j
    · exact hu
  all_goals exact kept _ (Eq.refl false)

theorem holdSound_bootHold : holdSound bootHold := by
  have hmask : bootHold.mask ≠ 0 := by decide
  have howner : bootHold.owner.val = 47 := rfl
  refine holdSound_iff.mpr ⟨⟨hmask, fun m hm => (by cases hm), fun n hn => (by cases hn), fun _ => ⟨rfl, rfl⟩,
    fun _ => ⟨rfl, rfl, rfl, rfl⟩, fun _ => rfl, fun e => (by cases e), fun e => by omega⟩,
    ⟨Nat.zero_le _, fun n hn => (by cases hn)⟩, ⟨rfl, fun e => (by cases e), fun _ => ⟨60, rfl, by decide, by decide⟩, rfl,
    fun n hn => (by cases hn)⟩, rfl⟩

theorem exec_holdsSound (hwf : carriesTemplate c) (hs : tableSound s) (h : exec c s = .next t) :
    (∀ i : Fin 48, ∀ h, (t.htm.slots[i]'i.2).hold = some h → holdSound h) ∧ t.htm.ownerCount 47 ≤ 1 := by
  by_cases hpower : c = .powerOnReset ∨ c = .supplyBelowResetThreshold
  · have hboot : ∀ i : Fin 48, ∀ g, (t.htm.slots[i]'i.2).hold = some g → i = 0 ∧ g = bootHold := fun i g hg => by
      rcases hpower with rfl | rfl <;> cases h
      · exact Htm.reset_hold.mp hg
      · have hfree : (Htm.free.slots[i]'i.2).hold = some g := hg
        rw [Htm.free_slot] at hfree
        cases hfree
    refine ⟨fun i g hg => (hboot i g hg).2 ▸ holdSound_bootHold, Htm.ownerCount_le_one.mpr ?_⟩
    intro i j g g' hi hj _ _
    exact (hboot i g hi).1.trans (hboot j g' hj).1.symm
  · rw [not_or] at hpower
    have hm := exec_holdsMove hpower.1 hpower.2 h
    exact ⟨hm.holds hwf hs.holds, hm.host hs.host⟩

/-! #### What waits -/

theorem exec_handedSound (htemplates : templatesSound s) (hs : ∀ x ∈ s.handed, carriesTemplate x)
    (h : exec c s = .next t) : ∀ x ∈ t.handed, carriesTemplate x := by
  by_cases hpower : c = .powerOnReset ∨ c = .supplyBelowResetThreshold
  · rcases hpower with rfl | rfl <;> cases h <;> intro x hx
    · rcases List.mem_cons.mp hx with rfl | hx
      · trivial
      · split at hx
        · rw [List.mem_singleton.mp hx]
          trivial
        · cases hx
    · cases hx
  rw [not_or] at hpower
  by_cases hheld : s.held = true
  · obtain ⟨levels, rfl⟩ := exec_held_frame hheld hpower.1 hpower.2 h
    exact hs
  rw [Bool.not_eq_true] at hheld
  by_cases hhand : ∃ i j, c = .handOver i j
  · obtain ⟨i, j, rfl⟩ := hhand
    rw [exec_handOver hheld] at h
    cases h
    intro x hx
    rcases List.mem_append.mp hx with hx | hx
    · exact hs x (List.mem_of_mem_erase hx)
    · rw [List.mem_singleton.mp hx]
      exact htemplates j
  by_cases hturn : ∀ demand entered, c = .holdDemandReport demand entered → TakesReport c s
  · obtain ⟨new, hnew, hform, -, -⟩ :=
      exec_reports hheld hpower.1 hpower.2 (fun i j e => hhand ⟨i, j, e⟩) hturn h
    intro x hx
    by_cases hw : watched x = true
    · have hx : x ∈ t.inFlight := List.mem_filter.mpr ⟨hx, hw⟩
      rw [hnew] at hx
      rcases List.mem_append.mp hx with hx | hx
      · exact hs x (List.mem_of_mem_erase (List.mem_filter.mp hx).1)
      · rcases hform with rfl | ⟨entered, rfl⟩
        · cases hx
        · rw [List.mem_singleton.mp hx]
          trivial
    · exact carriesTemplate_of_not_watched (Bool.eq_false_of_not_eq_true hw)
  · push Not at hturn
    obtain ⟨demand, entered, rfl, hno⟩ := hturn
    have h : execHoldDemandReport demand entered s = .next t := h
    rcases arriveReport_eq_next h with ⟨hh, -⟩ | ⟨hyes, -⟩ | ⟨-, -, ⟨-, rfl⟩ | ⟨-, rfl⟩⟩
    · rw [hheld] at hh
      cases hh
    · exact absurd hyes hno
    · exact hs
    · intro x hx
      rcases List.mem_append.mp hx with hx | hx
      · exact hs x hx
      · rw [List.mem_singleton.mp hx]
        trivial

theorem exec_tableSound (hwf : carriesTemplate c) (hs : tableSound s) (h : exec c s = .next t) : tableSound t := by
  obtain ⟨hholds, hhost⟩ := exec_holdsSound hwf hs h
  have hout : outstandingSound t := portLaw_outstandingSound.exec c s t
    (fun e he => hs.waiting e.2 (.inr (.inr ⟨e.1, he⟩))) h
  refine ⟨hholds, hhost, exec_limitsSound hs.limits h, exec_templatesSound c s t hs.templates h, fun x hx => ?_⟩
  rcases hx with hx | hx | ⟨n, hx⟩
  · exact hs.waiting x (.inl ((exec_kept h).pending ▸ hx))
  · exact exec_handedSound hs.templates (fun x hx => hs.waiting x (.inr (.inl hx))) h x hx
  · exact hout _ hx

theorem carriesTemplate_of_dueExpiry (h : s.dueExpiry = some c) : carriesTemplate c := by
  unfold State.dueExpiry at h
  rcases Option.or_eq_some_iff.mp h with h | ⟨-, h⟩
  · obtain ⟨i, -, h⟩ := List.exists_of_findSome?_eq_some h
    unfold Domain.dueExpiry at h
    repeat' split at h
    all_goals cases h
    all_goals trivial
  · rcases Option.or_eq_some_iff.mp h with h | ⟨-, h⟩
    · obtain ⟨i, -, h⟩ := List.exists_of_findSome?_eq_some h
      unfold Pin.dueExpiry at h
      split at h <;> cases h
      trivial
    · unfold Mdc.dueExpiry at h
      repeat' split at h
      all_goals cases h
      all_goals trivial

/-- What the part takes of its own accord carries a template's fields where it is an application. -/
theorem carriesTemplate_of_nextOwn (hs : tableSound s) (h : s.nextOwn = some c) : carriesTemplate c := by
  unfold State.nextOwn at h
  split at h
  · cases h
  · split at h
    · rename_i hhanded
      cases h
      exact hs.waiting _ (.inr (.inl (by rw [hhanded]; exact List.mem_cons_self)))
    · split at h
      · rename_i e _ hout
        cases h
        exact hs.waiting _ (.inr (.inr ⟨e.1, by rw [hout]; exact List.mem_cons_self⟩))
      · exact carriesTemplate_of_dueExpiry h

theorem crystalPeriod_handed (s : State) :
    ∃ new, s.crystalPeriod.handed = s.handed ++ new ∧ ∀ x ∈ new, watched x = false := by
  unfold State.crystalPeriod State.advancePhase
  split
  · exact ⟨[], (List.append_nil _).symm, by simp⟩
  · split
    · exact ⟨[], (List.append_nil _).symm, by simp⟩
    · refine ⟨[_], rfl, fun x hx => ?_⟩
      rw [List.mem_singleton.mp hx]
      rfl

theorem tableSound_crystalPeriod (hs : tableSound s) : tableSound s.crystalPeriod := by
  have hhtm : s.crystalPeriod.htm = s.htm := crystalPeriod_sameIn (b := .htm) (by simp) s
  have htpe : s.crystalPeriod.tpe = s.tpe := crystalPeriod_sameIn (b := .tpe) (by simp) s
  have hctp : s.crystalPeriod.ctp = s.ctp := crystalPeriod_sameIn (b := .ctp) (by simp) s
  obtain ⟨n, hkept⟩ := crystalPeriod_sameOutside s
  obtain ⟨new, hnew, hquiet⟩ := crystalPeriod_handed s
  refine ⟨by rw [hhtm]; exact hs.holds, by rw [hhtm]; exact hs.host, by rw [hhtm]; exact hs.limits,
    by rw [htpe]; exact hs.templates, fun x hx => ?_⟩
  rw [hctp, hnew, hkept.pending, List.mem_append] at hx
  rcases hx with hx | (hx | hx) | hx
  · exact hs.waiting x (.inl hx)
  · exact hs.waiting x (.inr (.inl hx))
  · exact carriesTemplate_of_not_watched (hquiet x hx)
  · exact hs.waiting x (.inr (.inr hx))

/-- Settles O10: no move of a hold and no creation leaves an unsound record (`HoldMove.holdSound`, `HoldMade.holdSound`),
and the applications in flight carry templates of the table. -/
theorem holdTableStaysSound : Obligations.HoldTableStaysSound := by
  intro s t hs h
  rcases step_cases h with ⟨c, rest, hp, h⟩ | ⟨c, hown, h⟩ | rfl
  · refine exec_tableSound (hs.waiting c (.inl (by rw [hp]; exact List.mem_cons_self))) ?_ h
    refine ⟨hs.holds, hs.host, hs.limits, hs.templates, fun x hx => hs.waiting x ?_⟩
    rcases hx with hx | hx
    · exact .inl (by rw [hp]; exact List.mem_cons_of_mem _ hx)
    · exact .inr hx
  · exact exec_tableSound (carriesTemplate_of_nextOwn hs hown) hs h
  · exact tableSound_crystalPeriod hs

end Sys2Proof.Machine

/-! ### The laws of clock, supply monitor, mode, pins and ATTN (05, 06, 08, 11) -/

namespace Sys2Proof.Machine

variable {c : Instr} {s t u v : State}

/-! #### The clock (R99 to R103) -/

theorem clockSound_congr (h : t.tmb = s.tmb) (hs : clockSound s) : clockSound t := by
  unfold clockSound
  rw [h]
  exact hs

theorem clockSound_blind : BlindToPort clockSound := ⟨fun _ _ _ h => h, fun _ _ h => h⟩

theorem Tmb.advanced_bounds {b : Tmb} (h1 : b.second ≤ 59) (h2 : b.minute ≤ 1439) (h3 : b.day ≤ 6) :
    b.advanced.second ≤ 59 ∧ b.advanced.minute ≤ 1439 ∧ b.advanced.day ≤ 6 := by
  unfold Tmb.advanced
  repeat' split
  all_goals
    dsimp only
    omega

theorem clockSound_reset : clockSound State.reset := by
  unfold clockSound
  decide

theorem exec_clockSound (c : Instr) : Keeps clockSound c := by
  have kept := Keeps.of_block (b := .tmb) (P := clockSound) fun _ _ => clockSound_congr
  cases c
  case powerOnReset | supplyBelowResetThreshold =>
    intro s t hs h
    cases h
    exact clockSound_congr (s := State.reset) rfl clockSound_reset
  case setClock =>
    intro s t hs h
    change execSetClock _ _ _ s = _ at h
    refine portCommand_keeps clockSound_blind (fun u _ hu => ?_) hs h
    dsimp only
    split
    · exact hu
    · rename_i hok
      exact ⟨hu.1, by dsimp only; omega, by dsimp only; omega, by dsimp only; omega⟩
  case oneSecondExpiry =>
    intro s t hs h
    change execOneSecondExpiry _ _ s = _ at h
    refine arrive_keeps clockSound_blind (fun u _ hu => ?_) hs h
    obtain ⟨-, h1, h2, h3⟩ := hu
    exact ⟨Nat.zero_lt_succ _, Tmb.advanced_bounds h1 h2 h3⟩
  all_goals exact kept _ (Eq.refl false)

theorem crystalPeriod_clockSound (s : State) (hs : clockSound s) : clockSound s.crystalPeriod := by
  obtain ⟨h0, h1, h2, h3⟩ := hs
  unfold State.crystalPeriod State.advancePhase
  split
  · exact ⟨h0, h1, h2, h3⟩
  · split
    · rename_i hnext
      exact ⟨hnext, h1, h2, h3⟩
    · exact ⟨Nat.zero_lt_succ _, h1, h2, h3⟩

/-! #### The supply monitor (R154 to R160) -/

theorem supplySound_congr (h : t.spm = s.spm) (hs : supplySound s) : supplySound t := by
  obtain ⟨h1, h2, h3, h4, h5, h6, h7, h8⟩ := hs
  constructor <;> rw [h] <;> assumption

theorem supplySound_blind : BlindToPort supplySound :=
  ⟨fun _ _ _ => supplySound_congr rfl, fun _ _ => supplySound_congr rfl⟩

theorem rawReading_bounds (x : Int) : -1024 ≤ rawReading x ∧ rawReading x ≤ 16383 := by
  unfold rawReading
  omega

theorem measuredOf_le (raw offset : Int) : measuredOf raw offset ≤ 16383 := by
  unfold measuredOf
  omega

theorem voltageCode_le (v : Nat) : voltageCode v ≤ 255 := Nat.min_le_right _ _

theorem ceilingAfter_ne_amber {before : Tier} (h : before ≠ .amber) (v vlow vcrit : Nat) :
    ceilingAfter before v vlow vcrit ≠ .amber := by
  unfold ceilingAfter
  repeat' split
  all_goals first | exact absurd rfl h | exact fun e => by cases e

theorem supplySound_abort (hs : supplySound s) : supplySound s.abortCalibration := by
  unfold State.abortCalibration
  split
  · refine supplySound_blind.raise ⟨hs.code, hs.thresholds, hs.ceiling, hs.lastRaw, hs.offset, fun m hm => ?_, ?_, ?_⟩
    · obtain ⟨h1, h2, -⟩ := hs.measured m hm
      exact ⟨h1, h2, fun e => (by cases e)⟩
    · exact ⟨Nat.zero_le _, fun e => (by cases e)⟩
    · exact ⟨fun e => (by cases e), fun e => (by cases e)⟩
  · exact hs

/-- The completion of a calibration that took its fourth sample (R160). -/
theorem supplySound_completed {m : Spm} (hs : supplySound { s with spm := m }) (hrun : m.cal = .running) (raw : Int)
    (hraw : -1024 ≤ raw ∧ raw ≤ 16383) : supplySound { s with spm := (m.sampled raw).completed } := by
  have hmeasured : m.measured = none := Option.eq_none_iff_forall_ne_some.mpr fun x hx => (hs.measured x hx).2.2 hrun
  have hcount := hs.samples.2 hrun
  have hlast : ∀ x, some raw = some x → -1024 ≤ x ∧ x ≤ 16383 := fun x hx => by cases hx; exact hraw
  unfold Spm.completed
  dsimp only
  split
  · rename_i hoffset
    refine ⟨hs.code, hs.thresholds, hs.ceiling, hlast, hoffset, fun x hx => ?_, ?_, ?_⟩
    · exact absurd (hmeasured.symm.trans hx) (by simp)
    · exact ⟨Nat.succ_le_succ hcount, fun e => (by cases e)⟩
    · exact ⟨fun e => (by cases e), fun e => (by cases e)⟩
  · refine ⟨hs.code, hs.thresholds, hs.ceiling, hlast, hs.offset, fun x hx => ?_, ?_, ?_⟩
    · exact absurd (hmeasured.symm.trans hx) (by simp)
    · exact ⟨Nat.succ_le_succ hcount, fun e => (by cases e)⟩
    · exact ⟨fun e => (by cases e), fun e => (by cases e)⟩

/-- The current part of a conversion (R158, R160). -/
theorem supplySound_convertCurrent {m : Spm} (hs : supplySound { s with spm := m }) {raw : Int}
    (hraw : -1024 ≤ raw ∧ raw ≤ 16383) : supplySound { s with spm := (m.convertCurrent raw).1 } := by
  have hlast : ∀ x, some raw = some x → -1024 ≤ x ∧ x ≤ 16383 := fun x hx => by cases hx; exact hraw
  unfold Spm.convertCurrent
  split
  · rename_i hrun
    have hmeasured : m.measured = none := Option.eq_none_iff_forall_ne_some.mpr fun x hx => (hs.measured x hx).2.2 hrun
    dsimp only
    split
    · exact supplySound_completed hs hrun raw hraw
    · rename_i hcount
      have hlt : m.calCount + 1 < 4 := Nat.lt_of_not_le hcount
      refine ⟨hs.code, hs.thresholds, hs.ceiling, hlast, hs.offset, fun x hx => ?_, ?_, hs.shorted⟩
      · exact absurd (hmeasured.symm.trans hx) (by simp)
      · exact ⟨Nat.le_of_lt hlt, fun _ => Nat.le_of_lt_succ hlt⟩
  · rename_i hrun
    split
    · rename_i hmonitor
      refine ⟨hs.code, hs.thresholds, hs.ceiling, hlast, hs.offset, fun x hx => ?_, hs.samples, hs.shorted⟩
      cases hx
      exact ⟨measuredOf_le _ _, hmonitor, hrun⟩
    · exact hs

theorem supplySound_reset : supplySound State.reset :=
  ⟨fun v hv => (by cases hv), by decide, by decide, fun v hv => (by cases hv), by decide, fun v hv => (by cases hv),
    by decide, by decide⟩

theorem exec_supplySound (c : Instr) : Keeps supplySound c := by
  have kept := Keeps.of_block (b := .spm) (P := supplySound) fun _ _ => supplySound_congr
  cases c
  case powerOnReset | supplyBelowResetThreshold =>
    intro s t hs h
    cases h
    exact supplySound_congr (s := State.reset) rfl supplySound_reset
  case voltageConfig vlow vcrit =>
    intro s t hs h
    change execVoltageConfig _ _ s = _ at h
    refine portCommand_keeps supplySound_blind (fun u _ hu => ?_) hs h
    split
    · rename_i hok
      have := vlow.isLt
      exact ⟨hu.code, ⟨hok, by dsimp only; omega⟩, hu.ceiling, hu.lastRaw, hu.offset, hu.measured, hu.samples, hu.shorted⟩
    · exact hu
  case currentConfig =>
    intro s t hs h
    change execCurrentConfig _ s = _ at h
    refine portCommand_keeps supplySound_blind (fun u _ hu => ?_) hs h
    split
    · exact hu
    · refine ⟨hu.code, hu.thresholds, hu.ceiling, hu.lastRaw, hu.offset, fun m hm => ?_, hu.samples, hu.shorted⟩
      dsimp only at hm ⊢
      split at hm
      · obtain ⟨h1, -, h3⟩ := hu.measured m hm
        exact ⟨h1, ‹_›, h3⟩
      · cases hm
  case calibrate =>
    intro s t hs h
    change execCalibrate s = _ at h
    refine portCommand_keeps supplySound_blind (fun u _ hu => ?_) hs h
    split
    · exact hu
    · exact ⟨hu.code, hu.thresholds, hu.ceiling, hu.lastRaw, hu.offset, fun m hm => (by cases hm),
        ⟨Nat.zero_le _, fun _ => Nat.zero_le _⟩, ⟨fun _ => rfl, fun _ => rfl⟩⟩
  case voltageConversion vbat shunt =>
    intro s t hs h
    change execVoltageConversion _ _ s = _ at h
    refine arrive_keeps supplySound_blind (fun u _ hu => ?_) hs h
    refine supplySound_blind.raise (supplySound_blind.handed _ _ ?_)
    refine supplySound_convertCurrent (s := u) ?_ (rawReading_bounds _)
    refine ⟨fun v hv => ?_, hu.thresholds, ceilingAfter_ne_amber hu.ceiling _ _ _, hu.lastRaw, hu.offset, hu.measured,
      hu.samples, hu.shorted⟩
    cases hv
    exact voltageCode_le _
  case calibrationCompletion =>
    intro s t hs h
    change execCalibrationCompletion _ s = _ at h
    refine arrive_keeps supplySound_blind (fun u _ hu => ?_) hs h
    split
    · rename_i hrun
      exact supplySound_blind.raise (supplySound_completed (s := u) (m := u.spm) hu hrun.1 _ (rawReading_bounds _))
    · exact hu
  case calibrationAbort =>
    intro s t hs h
    change execCalibrationAbort s = _ at h
    have hchoice : supplySound (if s.abortsMeet then s.countChoice else s) := by
      split
      · exact supplySound_congr (s := s) rfl hs
      · exact hs
    rcases execCalibrationAbort_cases s with ⟨-, e⟩ | ⟨-, s0, rfl, ⟨-, -, e⟩ | ⟨-, e⟩⟩ <;> rw [e] at h
    · cases h
      exact hs
    · exact arrive_keeps supplySound_blind (fun u _ hu => supplySound_abort hu) hchoice h
    · refine portPart_keeps supplySound_blind (fun u _ hu => ?_) hchoice h
      rw [State.abortByClear_eq]
      exact supplySound_congr (s := u.abortCalibration) rfl (supplySound_abort hu)
  all_goals exact kept _ (Eq.refl false)

/-! #### The mode controller (R163, R164) -/

theorem modeSound_congr (hmdc : t.mdc = s.mdc) (hign : t.inputs.ign = s.inputs.ign) (hheld : t.held = s.held)
    (hs : modeSound s) : modeSound t := by
  obtain ⟨h1, h2, h3, h4⟩ := hs
  constructor <;> simp only [hmdc, hign, hheld] <;> assumption

theorem modeSound_blind : BlindToPort modeSound :=
  ⟨fun _ _ _ => modeSound_congr rfl rfl rfl, fun _ _ => modeSound_congr rfl rfl rfl⟩

/-- What the entry to a mode needs: the settings in range, and the debounce timer as it belongs to the levels. -/
structure modeReady (s : State) : Prop where
  range : s.mdc.parkDelay ≤ 255
  debounce : s.held = false → (s.mdc.ignTimer.isSome = true ↔ s.inputs.ign ≠ s.mdc.ign)

theorem modeSound.ready (hs : modeSound s) : modeReady s := ⟨hs.range, hs.debounce⟩

theorem modeSound_enterRun (hs : modeReady s) (hign : s.mdc.ign = true) : modeSound s.enterRun :=
  modeSound_blind.raise ⟨⟨fun _ => hign, fun _ => rfl⟩, ⟨fun e => (by cases e), fun e => (by cases e)⟩, hs.range,
    hs.debounce⟩

theorem not_ign_of_eq_false {b : Bool} (h : b = false) : b ≠ true := by simp [h]

theorem modeSound_enterPark (hs : modeReady s) (hign : s.mdc.ign = false) : modeSound s.enterPark :=
  modeSound_blind.raise ⟨⟨fun e => (by cases e), fun e => absurd e (not_ign_of_eq_false hign)⟩,
    ⟨fun e => (by cases e), fun e => (by cases e)⟩, hs.range, hs.debounce⟩

theorem modeSound_enterParkPending (hs : modeReady s) (hign : s.mdc.ign = false) : modeSound s.enterParkPending :=
  modeSound_blind.raise ⟨⟨fun e => (by cases e), fun e => absurd e (not_ign_of_eq_false hign)⟩,
    ⟨fun _ => rfl, fun _ => rfl⟩, hs.range, hs.debounce⟩

/-- The debounced ignition takes the raw level, and the mode follows it (R164). -/
theorem modeSound_debounced (hs : modeSound s) (hheld : s.held = false) (htimer : s.mdc.ignTimer.isSome = true) :
    modeSound ((s.withMdc { s.mdc with ign := s.inputs.ign, ignTimer := none }).ignitionChanged s.inputs.ign) := by
  have hmode : s.mdc.mode = .run ↔ s.inputs.ign = false := by
    have hne := (hs.debounce hheld).mp htimer
    rw [hs.ignition]
    revert hne
    cases s.inputs.ign <;> cases s.mdc.ign <;> decide
  have hready : modeReady (s.withMdc { s.mdc with ign := s.inputs.ign, ignTimer := none }) :=
    ⟨hs.range, fun _ => ⟨fun e => (by cases e), fun e => absurd rfl e⟩⟩
  unfold State.ignitionChanged
  split
  · rename_i hign
    exact modeSound_enterRun hready hign
  · rename_i hign
    exact modeSound_enterRun hready hign
  · rename_i hign
    split
    · exact modeSound_enterPark hready hign
    · exact modeSound_enterParkPending hready hign
  · rename_i hrun hign
    rw [hmode.mp hrun] at hign
    cases hign
  · rename_i hpending hign
    have hrun := hmode.mpr hign
    rw [show s.mdc.mode = .parkPending from hpending] at hrun
    cases hrun
  · rename_i hpark hign
    have hrun := hmode.mpr hign
    rw [show s.mdc.mode = .park from hpark] at hrun
    cases hrun

theorem modeSound_of_reset (hmdc : s.mdc = Mdc.reset s.inputs.ign) : modeSound s := by
  constructor <;> rw [hmdc]
  · cases s.inputs.ign <;> decide
  · cases s.inputs.ign <;> decide
  · exact (by decide : 30 ≤ 255)
  · exact fun _ => ⟨fun e => (by cases e), fun e => absurd rfl e⟩

theorem modeSound.not_ign (hs : modeSound s) (h : s.mdc.mode ≠ .run) : s.mdc.ign = false := by
  rw [Ne, hs.ignition, Bool.not_eq_true] at h
  exact h

/-- A command that does not move the MDC keeps its law: it is no report of the ignition. -/
theorem modeSound_kept (c : Instr) (hm : decide (Block.mdc ∈ c.moves) = false) : Keeps modeSound c := by
  intro s t hs h
  replace hm := of_decide_eq_false hm
  refine modeSound_congr ((exec_kept h).blocks .mdc hm) (exec_ign ?_ h) (exec_held h ?_ ?_) hs
  all_goals
    intros
    rintro rfl
    exact hm (of_decide_eq_true rfl)

theorem exec_modeSound (c : Instr) : Keeps modeSound c := by
  cases c
  case powerOnReset | supplyBelowResetThreshold =>
    intro s t hs h
    cases h
    exact modeSound_of_reset rfl
  case modeConfig delay =>
    intro s t hs h
    change execModeConfig _ s = _ at h
    refine portCommand_keeps modeSound_blind (fun u _ hu => ?_) hs h
    have := delay.isLt
    exact ⟨hu.ignition, hu.delay, Nat.le_of_lt_succ this, hu.debounce⟩
  case parkNow =>
    intro s t hs h
    change execParkNow s = _ at h
    refine portCommand_keeps modeSound_blind (fun u _ hu => ?_) hs h
    split
    · rename_i hpending
      exact modeSound_enterPark hu.ready (hu.not_ign (by rw [hpending]; decide))
    · exact hu
    · exact hu
  case ignChange high =>
    intro s t hs h
    change execIgnChange _ s = _ at h
    rcases Bool.eq_false_or_eq_true s.held with hheld | hheld
    · have h := (if_pos hheld).symm.trans h
      cases h
      exact ⟨hs.ignition, hs.delay, hs.range, fun e => absurd (hheld.symm.trans e) (by decide)⟩
    · have h := (if_neg (not_ign_of_eq_false hheld)).symm.trans h
      refine arrive_keeps modeSound_blind (fun u hu' hu => ?_) hs h
      split
      · exact hu
      · refine ⟨hu.ignition, hu.delay, hu.range, fun _ => ?_⟩
        dsimp only [State.withMdc]
        split
        · exact ⟨fun e => (by cases e), fun e => absurd ‹_› e⟩
        · exact ⟨fun _ => ‹_›, fun _ => rfl⟩
  case ignDebounceExpiry =>
    intro s t hs h
    change execIgnDebounceExpiry s = _ at h
    refine arrive_keeps modeSound_blind (fun u hheld hu => ?_) hs h
    split
    · exact modeSound_debounced hu hheld ‹_›
    · exact hu
  case parkDelayExpiry =>
    intro s t hs h
    change execParkDelayExpiry s = _ at h
    refine arrive_keeps modeSound_blind (fun u _ hu => ?_) hs h
    split
    · rename_i hpending
      exact modeSound_enterPark hu.ready (hu.not_ign (by rw [hpending]; decide))
    · exact hu
  all_goals exact modeSound_kept _ (Eq.refl false)

theorem crystalPeriod_mdc (hheld : s.held = false) :
    s.crystalPeriod.mdc = { s.mdc with ignTimer := ageTimer s.mdc.ignTimer, parkTimer := ageTimer s.mdc.parkTimer } := by
  unfold State.crystalPeriod State.advancePhase
  rw [if_neg (not_ign_of_eq_false hheld)]
  split <;> rfl

theorem crystalPeriod_modeSound (s : State) (hs : modeSound s) : modeSound s.crystalPeriod := by
  cases hheld : s.held with
  | true => rwa [crystalPeriod_held hheld]
  | false =>
    obtain ⟨h1, h2⟩ := crystalPeriod_frame s
    constructor <;> rw [crystalPeriod_mdc hheld]
    · exact hs.ignition
    · rw [ageTimer_isSome]
      exact hs.delay
    · exact hs.range
    · rw [h2, ageTimer_isSome]
      exact fun _ => hs.debounce hheld

/-! #### The wake pins (R122, R124) -/

/-- A pin machine within its settings, its timer as its state has it. -/
structure pinSound (p : Pin) : Prop where
  timer : p.timer.isSome = true ↔ p.state = .debouncing
  code : p.debounce ≤ 15

/-- The pin rests in READY exactly while it is inactive. -/
def pinRests (p : Pin) (high : Bool) : Prop := p.state = .ready ↔ p.isActive high = false

theorem pinsSound_iff :
    pinsSound s ↔ (∀ i : Fin 8, pinSound (s.wsu.pins[i]'i.2))
      ∧ (s.held = false → ∀ i : Fin 8, pinRests (s.wsu.pins[i]'i.2) (s.inputs.wake.getLsbD i.val)) :=
  ⟨fun h => ⟨fun i => ⟨h.timer i, h.code i⟩, h.ready⟩, fun h => ⟨fun i => (h.1 i).timer, fun i => (h.1 i).code, h.2⟩⟩

theorem pinsSound_congr (hpins : t.wsu.pins = s.wsu.pins) (hwake : t.inputs.wake = s.inputs.wake) (hheld : t.held = s.held)
    (hs : pinsSound s) : pinsSound t := by
  obtain ⟨h1, h2, h3⟩ := hs
  constructor <;> simp only [hpins, hwake, hheld] <;> assumption

theorem pinsSound_blind : BlindToPort pinsSound :=
  ⟨fun _ _ _ => pinsSound_congr rfl rfl rfl, fun _ _ => pinsSound_congr rfl rfl rfl⟩

theorem pinSound_levelChange {p : Pin} (hp : pinSound p) (active : Bool) : pinSound (p.levelChange active).1 := by
  unfold Pin.levelChange
  split
  · split
    · exact ⟨⟨fun e => (by cases e), fun e => (by cases e)⟩, hp.code⟩
    · exact ⟨⟨fun _ => rfl, fun _ => rfl⟩, hp.code⟩
  · exact ⟨⟨fun e => (by cases e), fun e => (by cases e)⟩, hp.code⟩
  · rename_i hheld
    have htimer : ¬ p.timer.isSome = true := fun e => by
      rw [hp.timer, hheld] at e
      cases e
    exact ⟨⟨fun e => absurd e htimer, fun e => (by cases e)⟩, hp.code⟩
  all_goals exact hp

/-- A change of the level leaves the pin in READY exactly when it is inactive then. -/
theorem pinRests_levelChange {p : Pin} {high : Bool} (h : pinRests p (!high)) :
    pinRests (p.levelChange (p.isActive high)).1 high := by
  have hpol : ∀ b, (p.levelChange b).1.activeHigh = p.activeHigh := fun b => by
    unfold Pin.levelChange
    repeat' split
    all_goals rfl
  unfold pinRests at h ⊢
  rw [show (p.levelChange (p.isActive high)).1.isActive high = p.isActive high from
    congrArg (high == ·) (hpol _)]
  have hflip : p.isActive (!high) = !p.isActive high := by
    unfold Pin.isActive
    cases high <;> cases p.activeHigh <;> rfl
  rw [hflip] at h
  cases hact : p.isActive high <;> rw [hact] at h <;> cases hstate : p.state <;> rw [hstate] at h <;>
    simp [Pin.levelChange, hstate] at h ⊢
  split <;> simp

theorem pinSound_configured {p : Pin} (hp : pinSound p) (pol : Bool) (d : Nat) (high : Bool) :
    pinSound (p.configured pol d high) := by
  unfold Pin.configured
  dsimp only
  split
  · exact ⟨hp.timer, Nat.min_le_right _ _⟩
  · refine ⟨⟨fun e => (by cases e), fun e => ?_⟩, Nat.min_le_right _ _⟩
    dsimp only at e
    split at e <;> cases e

theorem pinRests_configured {p : Pin} {high : Bool} (h : pinRests p high) (pol : Bool) (d : Nat) :
    pinRests (p.configured pol d high) high := by
  unfold Pin.configured pinRests
  dsimp only
  split
  · rename_i e
    rw [e]
    exact h
  · have hact : ∀ st tm, Pin.isActive { p with activeHigh := pol, debounce := min d 15, state := st, timer := tm } high
        = Pin.isActive { p with activeHigh := pol, debounce := min d 15 } high := fun _ _ => rfl
    rw [hact]
    split
    · rename_i hb
      exact ⟨fun e => (by cases e), fun e => absurd (hb.symm.trans e) (by decide)⟩
    · rename_i hb
      exact ⟨fun _ => Bool.eq_false_of_not_eq_true hb, fun _ => rfl⟩

/-- One pin machine replaced. -/
theorem pinsSound_withPin {i : Fin 8} {p : Pin} (hs : pinsSound s) (hp : pinSound p)
    (hrest : s.held = false → pinRests p (s.inputs.wake.getLsbD i.val)) : pinsSound (s.withPin i p) := by
  have hslot : ∀ j : Fin 8, (s.withPin i p).wsu.pins[j]'j.2 = if i = j then p else s.wsu.pins[j]'j.2 := fun j => by
    rw [State.withPin_wsu]
    show (s.wsu.pins.set i p i.2)[j.val]'j.2 = _
    rw [Vector.getElem_set]
    simp [Fin.ext_iff]
  obtain ⟨h1, h2⟩ := pinsSound_iff.mp hs
  refine pinsSound_iff.mpr ⟨fun j => ?_, fun hheld j => ?_⟩ <;> rw [hslot]
  · split
    · exact hp
    · exact h1 j
  · split
    · rename_i e
      exact e ▸ hrest hheld
    · exact h2 hheld j

theorem pinsSound_of_reset (h : s.wsu = Wsu.reset s.inputs.wake) : pinsSound s := by
  have hslot : ∀ i : Fin 8, s.wsu.pins[i]'i.2 = Pin.reset (s.inputs.wake.getLsbD i.val) := fun i => by
    rw [h]
    simp [Wsu.reset]
  refine pinsSound_iff.mpr ⟨fun i => ?_, fun _ i => ?_⟩ <;> rw [hslot i]
  · refine ⟨?_, (by decide : 3 ≤ 15)⟩
    cases s.inputs.wake.getLsbD i.val <;> exact ⟨fun e => (by cases e), fun e => (by cases e)⟩
  · unfold pinRests
    cases s.inputs.wake.getLsbD i.val <;> decide

/-- A level of a pin reported to its machine. -/
theorem pinsSound_levelChange {i : Fin 8} {high : Bool} (hheld : s.held = false) (hs : pinsSound s) :
    pinsSound
      (let s1 := { s with inputs := { s.inputs with wake := wakeLevelsAfter s.inputs.wake i high } }
      if high = s.inputs.wake.getLsbD i.val then s1
      else
        let r := (s.wsu.pins[i]'i.2).levelChange ((s.wsu.pins[i]'i.2).isActive high)
        if r.2 then (s1.withPin i r.1).hand (.wakeEvent (pinSource i)) else s1.withPin i r.1) := by
  obtain ⟨hpins, hrests⟩ := pinsSound_iff.mp hs
  have hlevel := wakeLevelsAfter_getLsbD s.inputs.wake i
  dsimp only
  split
  · rename_i hsame
    refine pinsSound_iff.mpr ⟨hpins, fun _ j => ?_⟩
    dsimp only
    rw [hlevel]
    split
    · rename_i e
      rw [hsame, e]
      exact hrests hheld i
    · exact hrests hheld j
  · rename_i hdiff
    have hbefore : s.inputs.wake.getLsbD i.val = !high := by
      revert hdiff
      cases high <;> cases s.inputs.wake.getLsbD i.val <;> decide
    have hmoved : pinsSound (State.withPin
        { s with inputs := { s.inputs with wake := wakeLevelsAfter s.inputs.wake i high } } i
        ((s.wsu.pins[i]'i.2).levelChange ((s.wsu.pins[i]'i.2).isActive high)).1) := by
      have hslot : ∀ j : Fin 8, (s.wsu.pins.set i ((s.wsu.pins[i]'i.2).levelChange ((s.wsu.pins[i]'i.2).isActive high)).1 i.2)[j]'j.2
          = if i = j then ((s.wsu.pins[i]'i.2).levelChange ((s.wsu.pins[i]'i.2).isActive high)).1 else s.wsu.pins[j]'j.2 := fun j => by
        show (s.wsu.pins.set i _ i.2)[j.val]'j.2 = _
        rw [Vector.getElem_set]
        simp [Fin.ext_iff]
      refine pinsSound_iff.mpr ⟨fun j => ?_, fun _ j => ?_⟩ <;> rw [State.withPin_wsu] <;> dsimp only <;> rw [hslot]
      · split
        · exact pinSound_levelChange (hpins i) _
        · exact hpins j
      · rw [State.withPin_inputs, hlevel]
        split
        · rename_i e
          rw [if_pos e.symm]
          exact pinRests_levelChange (hbefore ▸ hrests hheld i)
        · rename_i e
          rw [if_neg fun e' => e e'.symm]
          exact hrests hheld j
    split
    · exact pinsSound_blind.handed _ _ hmoved
    · exact hmoved

/-- A command that does not move the WSU keeps the law of the pins: it is no report of a pin. -/
theorem pinsSound_kept (c : Instr) (hm : decide (Block.wsu ∈ c.moves) = false) : Keeps pinsSound c := by
  intro s t hs h
  replace hm := of_decide_eq_false hm
  refine pinsSound_congr (congrArg Wsu.pins ((exec_kept h).blocks .wsu hm)) (exec_wake ?_ h) (exec_held h ?_ ?_) hs
  all_goals
    intros
    rintro rfl
    exact hm (of_decide_eq_true rfl)

theorem exec_pinsSound (c : Instr) : Keeps pinsSound c := by
  cases c
  case powerOnReset | supplyBelowResetThreshold =>
    intro s t hs h
    cases h
    exact pinsSound_of_reset rfl
  case sourceConfig args =>
    intro s t hs h
    change execSourceConfig _ s = _ at h
    refine portCommand_keeps pinsSound_blind (fun u _ hu => ?_) hs h
    repeat' split
    · exact hu
    · exact hu
    · exact pinsSound_congr (s := u) rfl rfl rfl hu
    · exact hu
    · obtain ⟨hpins, hrests⟩ := pinsSound_iff.mp hu
      exact pinsSound_withPin (pinsSound_congr (s := u) rfl rfl rfl hu) (pinSound_configured (hpins _) _ _ _)
        fun hheld => pinRests_configured (hrests hheld _) _ _
  case pinLevelChange i high =>
    intro s t hs h
    change execPinLevelChange _ _ s = _ at h
    rcases Bool.eq_false_or_eq_true s.held with hheld | hheld
    · have h := (if_pos hheld).symm.trans h
      cases h
      exact ⟨hs.timer, hs.code, fun e => absurd (hheld.symm.trans e) (by decide)⟩
    · have h := (if_neg (not_ign_of_eq_false hheld)).symm.trans h
      exact arrive_keeps pinsSound_blind (fun u hheld hu => pinsSound_levelChange hheld hu) hs h
  case debounceExpiry i =>
    intro s t hs h
    change execDebounceExpiry _ s = _ at h
    refine arrive_keeps pinsSound_blind (fun u _ hu => ?_) hs h
    obtain ⟨hpins, hrests⟩ := pinsSound_iff.mp hu
    split
    · rename_i hstate
      refine pinsSound_blind.handed _ _ (pinsSound_withPin hu ⟨⟨fun e => (by cases e), fun e => (by cases e)⟩, (hpins i).code⟩
        fun hheld => ⟨fun e => (by cases e), fun e => ?_⟩)
      rw [(hrests hheld i).mpr e] at hstate
      cases hstate
    · exact hu
  case wakeEvent =>
    intro s t hs h
    change execWakeEvent _ s = _ at h
    refine arrive_keeps pinsSound_blind (fun u _ hu => ?_) hs h
    dsimp only
    repeat' split
    · exact pinsSound_blind.raise (pinsSound_congr (s := u) rfl rfl rfl hu)
    · exact pinsSound_blind.raise (pinsSound_congr (s := u) rfl rfl rfl hu)
    · exact pinsSound_congr (s := u) rfl rfl rfl hu
  case wsuReturn =>
    intro s t hs h
    change execWsuReturn _ _ s = _ at h
    refine arrive_keeps pinsSound_blind (fun u _ hu => ?_) hs h
    exact pinsSound_blind.raise (pinsSound_congr (s := u) rfl rfl rfl hu)
  all_goals exact pinsSound_kept _ (Eq.refl false)

theorem crystalPeriod_pins (hheld : s.held = false) (i : Fin 8) :
    s.crystalPeriod.wsu.pins[i]'i.2 = { s.wsu.pins[i]'i.2 with timer := ageTimer (s.wsu.pins[i]'i.2).timer } := by
  unfold State.crystalPeriod State.advancePhase
  rw [if_neg (not_ign_of_eq_false hheld)]
  split <;> simp [State.ageTimers]

theorem crystalPeriod_pinsSound (s : State) (hs : pinsSound s) : pinsSound s.crystalPeriod := by
  cases hheld : s.held with
  | true => rwa [crystalPeriod_held hheld]
  | false =>
    obtain ⟨h1, h2⟩ := crystalPeriod_frame s
    obtain ⟨hpins, hrests⟩ := pinsSound_iff.mp hs
    refine pinsSound_iff.mpr ⟨fun i => ?_, fun _ i => ?_⟩ <;> rw [crystalPeriod_pins hheld]
    · exact ⟨by rw [ageTimer_isSome]; exact (hpins i).timer, (hpins i).code⟩
    · rw [h2]
      exact hrests hheld i

/-! #### ATTN (R194) -/

theorem attnSound_congr (h : t.evu = s.evu) (hs : attnSound s) : attnSound t := by
  unfold attnSound
  rw [h]
  exact hs

theorem attnSound_blind : BlindToPort attnSound := ⟨fun _ _ _ h => h, fun _ _ h => h⟩

theorem attnSound_withPending {e : Evu} {pending : FlagSet} (h : s.evu = e.withPending pending) : attnSound s := by
  unfold attnSound
  rw [h]
  rfl

theorem attnSound_setFlags (s : State) (flags : FlagSet) : attnSound (s.setFlags flags) :=
  attnSound_withPending (by rw [State.setFlags_eq])

theorem attnSound_reset : attnSound State.reset := by
  unfold attnSound
  decide

theorem exec_attnSound (c : Instr) : Keeps attnSound c := by
  have kept := Keeps.of_block (b := .evu) (P := attnSound) fun _ _ => attnSound_congr
  cases c
  case powerOnReset | supplyBelowResetThreshold =>
    intro s t hs h
    cases h
    exact attnSound_congr (s := State.reset) rfl attnSound_reset
  case events =>
    intro s t hs h
    change execEvents _ s = _ at h
    refine portCommand_keeps attnSound_blind (fun u _ _ => ?_) hs h
    exact attnSound_withPending rfl
  case eventEnable =>
    intro s t hs h
    change execEventEnable _ _ s = _ at h
    refine portCommand_keeps attnSound_blind (fun u _ hu => ?_) hs h
    split
    · exact hu
    · exact attnSound_withPending rfl
  case flagSetting =>
    intro s t hs h
    change execFlagSetting _ s = _ at h
    refine arrive_keeps attnSound_blind (fun u _ _ => ?_) hs h
    exact attnSound_setFlags _ _
  case clearFlags =>
    intro s t hs h
    change execClearFlags s = _ at h
    refine portPart_keeps attnSound_blind (fun u _ _ => ?_) hs h
    exact attnSound_withPending rfl
  all_goals exact kept _ (Eq.refl false)

/-- Settles O15: each law reads one block, with the levels it is formed from, and is kept by every row that moves the
block. -/
theorem theOtherBlocksStaySound : Obligations.TheOtherBlocksStaySound := by
  refine ⟨fun s t h => ⟨fun hs => ?_, fun hs => ?_, fun hs => ?_⟩, fun s t h => ⟨fun hs => ?_, fun hs => ?_, fun hs => ?_⟩⟩
  · exact step_keeps (P := clockSound) (fun _ _ => clockSound_congr rfl) exec_clockSound crystalPeriod_clockSound s t hs h
  · exact step_keeps (P := supplySound) (fun _ _ => supplySound_congr rfl) exec_supplySound
      (fun u => supplySound_congr (crystalPeriod_sameIn (b := .spm) (by simp) u)) s t hs h
  · exact step_keeps (P := modeSound) (fun _ _ => modeSound_congr rfl rfl rfl) exec_modeSound crystalPeriod_modeSound s t hs h
  · exact step_keeps (P := pinsSound) (fun _ _ => pinsSound_congr rfl rfl rfl) exec_pinsSound crystalPeriod_pinsSound s t hs h
  · exact portLaw_portSound.step s t hs h
  · exact step_keeps (P := attnSound) (fun _ _ => attnSound_congr rfl) exec_attnSound
      (fun u => attnSound_congr (crystalPeriod_sameIn (b := .evu) (by simp) u)) s t hs h

end Sys2Proof.Machine

/-! ### The hold operations on both ports (R6, R8, R15 to R19) -/

namespace Sys2Proof.Machine

variable {c : Instr} {s s1 t u : State} {n : Nat} {st : Status} {node : Option Byte} {w : BitVec 16} {i : Fin 48} {x : Hold}

/-! #### Handles (R6, R199) -/

theorem handleOf_slot (w : BitVec 16) : (handleOf w).slot.val = w.toNat / 256 % 64 := by
  simp [handleOf, Nat.shiftRight_eq_div_pow]

theorem handleOf_gen (w : BitVec 16) : (handleOf w).gen.toNat = w.toNat % 16 := by
  simp [handleOf]

theorem Htm.resolve_of_range {t : Htm} {h : Handle} (hr : 47 < h.slot.val) : t.resolve h = .error .arg :=
  dif_neg (by omega)

theorem Htm.resolve_at {t : Htm} {h : Handle} {i : Fin 48} (hs : h.slot.val = i.val) :
    t.resolve h = match (t.slots[i]'i.2).hold with
      | none => .error .stale
      | some x => if h.gen = (t.slots[i]'i.2).gen then .ok (i, x) else .error .stale := by
  obtain ⟨slot, gen⟩ := h
  obtain ⟨k, hk⟩ := i
  dsimp only at hs
  subst hs
  exact dif_pos hk

/-! #### Authority (R6, R15) -/

theorem State.authorised_of_error {h : Handle} (e : s.htm.resolve h = .error st) (node : Option Byte) :
    s.authorised node h = .error st := by
  unfold State.authorised
  rw [e]

theorem State.authorised_port {h : Handle} (e : s.htm.resolve h = .ok (i, x)) : s.authorised none h = .ok (i, x) := by
  unfold State.authorised
  rw [e]

theorem State.authorised_node {h : Handle} (e : s.htm.resolve h = .ok (i, x)) (node : Byte) :
    s.authorised (some node) h = if x.owner.val = node.toNat then .ok (i, x) else .error .notOwner := by
  unfold State.authorised
  rw [e]

theorem State.takeRenew_of_error {h : Handle} (e : s.authorised node h = .error st) (code : Fin 166) :
    s.takeRenew node h code = (s, .error st) := by
  unfold State.takeRenew
  rw [e]

theorem State.takeRelease_of_error {h : Handle} (e : s.authorised node h = .error st) :
    s.takeRelease node h = (s, .error st) := by
  unfold State.takeRelease
  rw [e]

theorem State.takeRelease_of_ok {h : Handle} (e : s.authorised node h = .ok (i, x)) :
    s.takeRelease node h = (s.settleTable (s.htm.retire i) [] [], .ok ()) := by
  unfold State.takeRelease
  rw [e]

/-! #### The rows -/

/-- A Control Port command, taken at its block under a serial number: the handling, then the result to the CTP. -/
theorem exec_of_takes {g : State → State × Reply} (he : exec c s = portCommand c s g) (h : Takes c s n s1) {u : State}
    {r : Reply} (hg : g s1 = (u, r)) : exec c s = .next (u.hand (.blockResult n r.status r.payload)) := by
  rw [he, portCommand_of_takes h, hg]

/-- The result that a block returns to the CTP for an operation of the table. -/
def portResult {α : Type} (n : Nat) (r : Except Status α) (payload : α → List Byte) : Instr :=
  .blockResult n (replyOf r payload).status (replyOf r payload).payload

theorem exec_renew {code : Byte} (h : Takes (.renew w code) s n s1) {u : State} {r : Except Status Hold}
    (hr : s1.takeRenew none (handleOf w) (clampCode code) = (u, r)) :
    exec (.renew w code) s = .next (u.hand (portResult n r fun x =>
      handleBytes (handleOf w) ++ byte (holdStateNumber x.state) ++ beBytes 4 (x.remaining.getD 0))) := by
  exact exec_of_takes (by rfl) h (by rw [hr])

theorem exec_release (h : Takes (.release w) s n s1) {u : State} {r : Except Status Unit}
    (hr : s1.takeRelease none (handleOf w) = (u, r)) :
    exec (.release w) s = .next (u.hand (portResult n r fun _ => handleBytes (handleOf w))) := by
  exact exec_of_takes (by rfl) h (by rw [hr])

theorem exec_query (h : Takes (.query w) s n s1) {r : Except Status (Fin 48 × Hold)}
    (hr : s1.authorised none (handleOf w) = r) :
    exec (.query w) s = .next (s1.hand (portResult n r fun e => recordBytes (handleOf w) e.2)) := by
  exact exec_of_takes (by rfl) h (by rw [hr])

/-- What the HTM returns to a node for a renewal. -/
def renewReturn (node : Byte) (h : Handle) : Except Status Hold → NetReturn
  | .error st => .refused .renew node h st
  | .ok x => .renewOk node h x

/-- What the HTM returns to a node for a release. -/
def releaseReturn (node : Byte) (h : Handle) : Except Status Unit → NetReturn
  | .error st => .refused .release node h st
  | .ok _ => .releaseOk node h

/-- What the HTM returns to a node for a query. -/
def queryReturn (node : Byte) (h : Handle) : Except Status (Fin 48 × Hold) → NetReturn
  | .error st => .refused .query node h st
  | .ok e => .queryOk node h e.2

theorem exec_networkRenew {node code : Byte} {h : Handle} (hheld : s.held = false) {u : State} {r : Except Status Hold}
    (hr : (s.take (.networkRenew node h code)).takeRenew (some node) h (clampCode code) = (u, r)) :
    exec (.networkRenew node h code) s = .next (u.hand (.htmReturn (renewReturn node h r))) := by
  show execNetworkRenew node h code s = _
  unfold execNetworkRenew
  rw [arrive_next hheld, hr]
  cases r <;> rfl

theorem exec_networkRelease {node : Byte} {h : Handle} (hheld : s.held = false) {u : State} {r : Except Status Unit}
    (hr : (s.take (.networkRelease node h)).takeRelease (some node) h = (u, r)) :
    exec (.networkRelease node h) s = .next (u.hand (.htmReturn (releaseReturn node h r))) := by
  show execNetworkRelease node h s = _
  unfold execNetworkRelease
  rw [arrive_next hheld, hr]
  cases r <;> rfl

theorem exec_networkQuery {node : Byte} {h : Handle} (hheld : s.held = false) {r : Except Status (Fin 48 × Hold)}
    (hr : (s.take (.networkQuery node h)).authorised (some node) h = r) :
    exec (.networkQuery node h) s =
      .next ((s.take (.networkQuery node h)).hand (.htmReturn (queryReturn node h r))) := by
  show execNetworkQuery node h s = _
  unfold execNetworkQuery
  rw [arrive_next hheld, hr]
  cases r <;> rfl

/-- A handle that does not pass, or whose hold is another's, is answered with the status and changes nothing. -/
theorem exec_network_refused {nd code : Byte} {h : Handle} (hheld : s.held = false)
    (e : s.authorised (some nd) h = .error st) :
    exec (.networkRenew nd h code) s =
        .next ((s.take (.networkRenew nd h code)).hand (.htmReturn (.refused .renew nd h st)))
      ∧ exec (.networkRelease nd h) s =
        .next ((s.take (.networkRelease nd h)).hand (.htmReturn (.refused .release nd h st)))
      ∧ exec (.networkQuery nd h) s =
        .next ((s.take (.networkQuery nd h)).hand (.htmReturn (.refused .query nd h st))) :=
  have e : ∀ c, (s.take c).authorised (some nd) h = .error st := fun _ => e
  ⟨exec_networkRenew hheld (State.takeRenew_of_error (e _) _),
    exec_networkRelease hheld (State.takeRelease_of_error (e _)), exec_networkQuery hheld (e _)⟩

/-- Settles O17. The handle checks stand before all others (`State.authorised_of_error`), the owner check after them. -/
theorem handlesAndNodesAreChecked : Obligations.HandlesAndNodesAreChecked := by
  refine ⟨fun w => ⟨handleOf_slot w, handleOf_gen w⟩, fun _ => rfl, ⟨fun t h => ⟨Htm.resolve_of_range, fun i hs => ?_⟩, ?_, ?_⟩,
    ?_⟩
  · rw [Htm.resolve_at hs]
    refine ⟨fun e => ?_, fun x e hgen => ?_, fun x e hgen => ?_⟩ <;> simp only [e]
    · exact if_neg hgen
    · exact if_pos hgen
  · intro w code st s s1 n e
    have hauth := State.authorised_of_error e none
    exact ⟨fun h => exec_renew h (State.takeRenew_of_error hauth _),
      fun h => exec_release h (State.takeRelease_of_error hauth), fun h => exec_query h hauth⟩
  · intro node code h st s hheld e
    exact exec_network_refused hheld (State.authorised_of_error e _)
  · intro node code h s i x hheld e hne
    exact exec_network_refused hheld ((State.authorised_node e node).trans (if_neg hne))

end Sys2Proof.Machine

/-! ### REQUEST on both ports (R8, R16 to R19) -/

namespace Sys2Proof.Machine

variable {c : Instr} {s s1 t u : State} {n : Nat} {st : Status} {i : Fin 48} {x : Hold} {a : RequestArgs} {lo hi : Nat}

/-! #### The checks in their order (R17) -/

/-- Counting slots by their hold is the length of the list of them. -/
theorem Htm.countWhere_eq (t : Htm) (p : Hold → Bool) :
    t.countWhere p = ((List.finRange 48).filter fun i => ((t.slots[i]'i.2).hold.map p) = some true).length := by
  unfold Htm.countWhere
  rw [List.countP_eq_length_filter]
  congr 1
  refine List.filter_congr fun i _ => ?_
  cases (t.slots[i]'i.2).hold with
  | none => rfl
  | some h => cases e : p h <;> simp [e]

theorem ofNat64_val (k : Nat) : (Fin.ofNat 64 k).val = k % 64 := by
  simp

theorem Htm.ownerLimit_ofNat (t : Htm) (k : Nat) :
    t.ownerLimit (Fin.ofNat 64 k) = if k % 64 ≤ 31 then t.netLimit else if k % 64 ≤ 46 then t.ctlLimit
      else if k % 64 = 47 then 1 else t.srcLimit := by
  simp only [Htm.ownerLimit, ofNat64_val]

theorem Htm.ownerCount_ofNat (t : Htm) (k : Nat) :
    t.ownerCount (Fin.ofNat 64 k) = ((List.finRange 48).filter fun i =>
      ((t.slots[i]'i.2).hold.map fun h => decide (h.owner.val = k % 64)) = some true).length := by
  unfold Htm.ownerCount
  rw [Htm.countWhere_eq]
  simp only [Fin.ext_iff, ofNat64_val]

/-! #### The arguments as R16 normalises them -/

theorem maskOf_eq (mask : BitVec 16) : maskOf mask = mask.setWidth 12 :=
  BitVec.eq_of_toNat_eq (by simp [maskOf])

theorem bitVec_eq_zero_iff {w : Nat} (b : BitVec w) : b = 0 ↔ b.toNat = 0 := by
  rw [← BitVec.toNat_inj]
  simp

theorem presentOf_toNat {w : Nat} (b : BitVec w) : presentOf b.toNat = if b = 0 then none else some b.toNat := by
  simp only [presentOf, bitVec_eq_zero_iff]

theorem presentOf_min {w : Nat} (b : BitVec w) {k : Nat} (hk : 0 < k) :
    presentOf (min b.toNat k) = if b = 0 then none else some (min b.toNat k) := by
  simp only [presentOf, bitVec_eq_zero_iff]
  congr 1
  rw [eq_iff_iff]
  omega

theorem requestArgs_eq (owner cls code : Byte) (mask interval : BitVec 16) (delay cap : BitVec 32) :
    requestArgs owner mask cls code delay interval cap =
      { owner := owner.toNat, mask := mask.setWidth 12, cls := cls.toNat, code := clampCode code,
        delay := if delay = 0 then none else some (min delay.toNat 604800)
        interval := if interval = 0 then none else some (min interval.toNat 10080)
        cap := if cap = 0 then none else some cap.toNat } := by
  unfold requestArgs delayOf intervalOf capOf
  rw [maskOf_eq, presentOf_min delay (by decide), presentOf_min interval (by decide), presentOf_toNat]

theorem exec_request_refused {owner cls code : Byte} {mask interval : BitVec 16} {delay cap : BitVec 32}
    (h : Takes (.request owner mask cls code delay interval cap) s n s1)
    (e : s1.checkRequest 32 46 (requestArgs owner mask cls code delay interval cap) = .error st) :
    exec (.request owner mask cls code delay interval cap) s = .next (s1.hand (.blockResult n st [])) := by
  have hr : s1.takeRequest 32 46 (requestArgs owner mask cls code delay interval cap) = (s1, .error st) := by
    unfold State.takeRequest
    rw [e]
  exact exec_of_takes (by rfl) h (by rw [hr])

/-- Settles O18: the checks are one chain of conditions, which `checkRequest_of_bad` and `checkRequest_of_good` unfold. -/
theorem requestsAreCheckedInOrder : Obligations.RequestsAreCheckedInOrder := by
  refine ⟨fun s lo hi a => ?_, ?_, ?_⟩
  · dsimp only
    rw [← Htm.ownerLimit_ofNat, ← Htm.ownerCount_ofNat]
    refine ⟨checkRequest_of_bad, fun hgood hlimit => ?_, fun hgood hlimit hfull => ?_, fun hgood hlimit hfull hdenied => ?_,
      fun hgood hlimit hfull hdenied => ?_⟩ <;> rw [checkRequest_of_good hgood]
    · exact if_pos hlimit
    · rw [if_neg hlimit, Htm.firstFree_eq_none.mpr hfull]
    · rw [if_neg hlimit]
      cases hfree : s.htm.firstFree with
      | none => exact absurd (Htm.firstFree_eq_none.mp hfree) hfull
      | some i => exact if_pos ⟨Option.isNone_iff_eq_none.mpr hdenied.1, hdenied.2⟩
    · rw [if_neg hlimit]
      cases hfree : s.htm.firstFree with
      | none => exact absurd (Htm.firstFree_eq_none.mp hfree) hfull
      | some i =>
        exact ⟨i, if_neg fun h => hdenied ⟨Option.isNone_iff_eq_none.mp h.1, h.2⟩, Htm.firstFree_eq_some.mp hfree⟩
  · intro owner cls code mask interval delay cap s s1 n st h e
    exact exec_request_refused h (requestArgs_eq .. ▸ e)
  · intro node cls code mask tag s st hheld e
    show execNetworkRequest node mask cls code tag s = _
    unfold execNetworkRequest
    rw [arrive_next hheld]
    have hr : (s.take (.networkRequest node mask cls code tag)).takeRequest 0 31 (netRequestArgs node mask cls code)
        = (s.take (.networkRequest node mask cls code tag), .error st) := by
      unfold State.takeRequest
      rw [show (s.take _).checkRequest 0 31 (netRequestArgs node mask cls code) = .error st from e]
    rw [hr]

/-! #### The hold that a REQUEST creates (R18, R19) -/

theorem settleTable_entered (t : Htm) (m : DomainSet) :
    s.settleTable t [m] [] = (s.withHtm t).hand (.holdDemandReport t.demand [m]) := by
  rw [State.settleTable_eq, if_neg (by simp), if_pos rfl, List.append_nil]
  rfl

theorem settleTable_same {t : Htm} (h : t.demand = s.htm.demand) : s.settleTable t [] [] = s.withHtm t := by
  rw [State.settleTable_eq, if_pos ⟨h, rfl⟩, if_pos rfl, List.append_nil, List.append_nil]
  rfl

/-- A hold that waits for its start adds no demand to a FREE slot. -/
theorem demand_putHold_waiting {t : Htm} (hfree : (t.slots[i]'i.2).hold = none) (hstate : x.state = .scheduled) :
    (t.putHold i x).demand = t.demand := by
  refine Htm.demand_congr fun j => ?_
  rw [Htm.putHold_slot]
  split
  · rename_i e
    subst e
    unfold Slot.activeMask
    rw [hfree]
    simp [hstate]
  · rfl

theorem checkRequest_free (h : s.checkRequest lo hi a = .ok i) : (s.htm.slots[i]'i.2).hold = none := by
  by_cases hbad : a.bad lo hi
  · rw [checkRequest_of_bad hbad] at h
    cases h
  · rw [checkRequest_of_good hbad] at h
    split at h
    · cases h
    · split at h
      · cases h
      · rename_i hfree
        split at h
        · cases h
        · cases h
          exact (Htm.firstFree_eq_some.mp hfree).1

/-- A KEEP is created ACTIVE and reported with its mask (R18). -/
theorem takeRequest_keep (h : s.checkRequest lo hi a = .ok i) (hdelay : a.delay = none) :
    s.takeRequest lo hi a =
      ((s.withHtm (s.htm.putHold i a.form.begun)).hand
          (.holdDemandReport (s.htm.putHold i a.form.begun).demand [a.mask]),
        .ok ((s.htm.slots[i]'i.2).handle i, .active)) := by
  have hhold : a.hold = a.form.begun := by
    rw [RequestArgs.hold_eq, hdelay]
  unfold State.takeRequest
  rw [h]
  dsimp only
  rw [hhold, ← settleTable_entered]
  rfl

/-- An APPOINT is created SCHEDULED and not reported (R19). -/
theorem takeRequest_appoint (h : s.checkRequest lo hi a = .ok i) {d : Nat} (hdelay : a.delay = some d) :
    s.takeRequest lo hi a =
      (s.withHtm (s.htm.putHold i (a.form.waiting d)), .ok ((s.htm.slots[i]'i.2).handle i, .scheduled)) := by
  have hhold : a.hold = a.form.waiting d := by
    rw [RequestArgs.hold_eq, hdelay]
  unfold State.takeRequest
  rw [h]
  dsimp only
  rw [hhold, ← settleTable_same (demand_putHold_waiting (checkRequest_free h) rfl)]
  rfl

/-- Settles O19. -/
theorem requestsCreateTheirHold : Obligations.RequestsCreateTheirHold := by
  refine ⟨?_, ?_, fun _ _ _ => rfl, fun _ _ => rfl⟩
  · intro owner cls code mask interval delay cap s s1 n i htake hok
    have hzero : delay = 0 ↔ delay.toNat = 0 := by
      rw [← BitVec.toNat_inj]
      simp
    have hargs := requestArgs_eq owner cls code mask interval delay cap
    rw [← hargs] at hok
    refine ⟨fun hd => ?_, fun hd => ?_⟩
    · have hdelay : (requestArgs owner mask cls code delay interval cap).delay = none := by
        rw [hargs]
        exact if_pos (hzero.mpr hd)
      have hr := takeRequest_keep hok hdelay
      rw [hargs] at hr
      exact exec_of_takes (by rfl) htake (by rw [hargs, hr])
    · have hdelay : (requestArgs owner mask cls code delay interval cap).delay = some (min delay.toNat 604800) := by
        rw [hargs]
        exact if_neg fun e => hd (hzero.mp e)
      have hr := takeRequest_appoint hok hdelay
      rw [hargs] at hr
      exact exec_of_takes (by rfl) htake (by rw [hargs, hr])
  · intro node cls code mask tag s i hheld hok
    show execNetworkRequest node mask cls code tag s = _
    unfold execNetworkRequest
    rw [arrive_next hheld]
    have hok : (s.take (.networkRequest node mask cls code tag)).checkRequest 0 31 (netRequestArgs node mask cls code)
      = .ok i := hok
    rw [takeRequest_keep hok rfl]
    rfl

end Sys2Proof.Machine

/-! ### The budget (R51 to R71) -/

namespace Sys2Proof.Machine

variable {c : Instr} {s s1 t u : State} {n : Nat} {st : Status}

/-! #### Commands of the Control Port at their blocks -/

/-- A command that its block refuses changes nothing but the port. -/
theorem exec_refused {g : State → State × Reply} (he : exec c s = portCommand c s g) (h : Takes c s n s1)
    (hg : g s1 = (s1, Reply.refuse st)) : exec c s = .next (s1.hand (.blockResult n st [])) :=
  exec_of_takes he h hg

/-- A command that its block executes, with the payload of its result. -/
theorem exec_ok {g : State → State × Reply} (he : exec c s = portCommand c s g) (h : Takes c s n s1) {p : List Byte}
    (hg : g s1 = (u, Reply.ok p)) : exec c s = .next (u.hand (.blockResult n .ok p)) :=
  exec_of_takes he h hg

/-- An arrival taken whole, outside power-on reset. -/
theorem exec_arrive {f : State → State} (he : exec c s = arrive c s f) (h : s.held = false) (hf : f (s.take c) = u) :
    exec c s = .next u := by
  rw [he, arrive_next h, hf]

/-- A report taken in its turn. -/
theorem exec_report {f : State → State} (he : exec c s = arriveReport c s f) (h : TakesReport c s)
    (hf : f (s.take c) = u) : exec c s = .next u := by
  rw [he, arriveReport_of_takes h, hf]

/-! #### F and the budget tier (R53) -/

/-- Settles O30: F is a quotient, and the tier's table a chain of conditions on ordered thresholds. -/
theorem fractionAndBudgetTier : Obligations.FractionAndBudgetTier := by
  refine ⟨fun r a ha hr => ?_, fun f tg ta tr h1 h2 => ?_⟩
  · have hlt : r * 256 < (fractionOf r a + 1) * a := by
      rw [Nat.mul_comm (_ + 1)]
      exact Nat.lt_mul_div_succ _ ha
    have hle : fractionOf r a ≤ 256 := Nat.div_le_of_le_mul (Nat.mul_le_mul_right 256 hr)
    refine ⟨Nat.div_mul_le_self _ _, hlt, hle, fun h => le_antisymm hr ?_, fun h => ?_⟩
    · have := Nat.div_mul_le_self (r * 256) a
      rw [show r * 256 / a = 256 from h, Nat.mul_comm] at this
      exact Nat.le_of_mul_le_mul_right this (by decide)
    · rw [h]
      exact Nat.mul_div_cancel_left _ ha
  · unfold tierOfFraction
    by_cases hg : tg ≤ f
    · rw [if_pos hg]
      exact ⟨iff_of_true rfl hg, iff_of_false nofun fun e => e.2.not_ge hg,
        iff_of_false nofun fun e => (e.2.trans h2).not_ge hg,
        iff_of_false nofun fun e => ((e.trans h1).trans h2).not_ge hg⟩
    rw [if_neg hg]
    by_cases ha : ta ≤ f
    · rw [if_pos ha]
      exact ⟨iff_of_false nofun hg, iff_of_true rfl ⟨ha, not_le.mp hg⟩, iff_of_false nofun fun e => e.2.not_ge ha,
        iff_of_false nofun fun e => (e.trans h1).not_ge ha⟩
    rw [if_neg ha]
    by_cases hr : tr ≤ f
    · rw [if_pos hr]
      exact ⟨iff_of_false nofun hg, iff_of_false nofun fun e => ha e.1, iff_of_true rfl ⟨hr, not_le.mp ha⟩,
        iff_of_false nofun fun e => e.not_ge hr⟩
    rw [if_neg hr]
    exact ⟨iff_of_false nofun hg, iff_of_false nofun fun e => ha e.1, iff_of_false nofun fun e => hr e.1,
      iff_of_true rfl (not_le.mp hr)⟩

/-! #### The budget as it is stored (R53) -/

theorem State.withBudget_eq (s : State) (b : Cbu) :
    s.withBudget b = { s with
      cbu := b.formed
      handed := s.handed ++ (if b.formed.tier = s.cbu.tier then [] else [.budgetTierReport b.formed.tier false]) } := by
  unfold State.withBudget
  split
  · rw [List.append_nil]
  · rfl

theorem min_eq_ite_lt (x y : Nat) : min x y = if y < x then y else x := by
  rcases lt_or_ge y x with h | h
  · rw [if_pos h, min_eq_right h.le]
  · rw [if_neg h.not_gt, min_eq_left h]

theorem sub_eq_ite_le (x y : Nat) : (if y ≤ x then x - y else 0) = x - y := by
  split
  · rfl
  · exact (Nat.sub_eq_zero_of_le (le_of_not_ge ‹_›)).symm

/-- Settles O31. -/
theorem creditRaisesTheBudget : Obligations.CreditRaisesTheBudget := by
  intro amount s s1 n h
  refine ⟨fun hz => exec_refused (by rfl) h (if_pos ((bitVec_eq_zero_iff _).mp hz)), fun hz => ?_⟩
  rw [exec_ok (by rfl) h (if_neg fun e => hz ((bitVec_eq_zero_iff _).mpr e)), State.withBudget_eq]
  rfl

/-- The six settings of BUDGET_CONFIG with their clamps (R54, R59, R60). -/
theorem Cbu.configured_eq (b : Cbu) (allowance q k tg ta tr : Nat) :
    b.configured allowance q k tg ta tr = { b with
      allowance := allowance
      remaining := if allowance * 3600 < b.remaining then allowance * 3600 else b.remaining
      quiescent := if 500 < q then 500 else q
      blend := if 32 < k then 32 else k
      tg := tg, ta := ta, tr := tr } := by
  unfold Cbu.configured
  rw [min_eq_ite_lt, min_eq_ite_lt, min_eq_ite_lt]

/-- At the refill R is A, so that F is 256 and the tier GREEN (R70). -/
theorem Cbu.refilled_eq {b : Cbu} (ha : 1 ≤ b.allowance) (htg : b.tg ≤ 256) :
    b.refilled = { b with mode := .park, remaining := b.allowance * 3600, fraction := 256, tier := .green,
                          parkSeconds := 0, debited := 0 } := by
  have hf : fractionOf (b.allowance * 3600) (b.allowance * 3600) = 256 :=
    Nat.mul_div_cancel_left _ (Nat.mul_pos ha (by decide))
  have ht : tierOfFraction 256 b.tg b.ta b.tr = .green := if_pos htg
  show { b with mode := .park, remaining := b.allowance * 3600,
                fraction := fractionOf (b.allowance * 3600) (b.allowance * 3600),
                tier := tierOfFraction (fractionOf (b.allowance * 3600) (b.allowance * 3600)) b.tg b.ta b.tr,
                parkSeconds := 0, debited := 0 } = _
  rw [hf, ht]

/-- Settles O32. -/
theorem budgetIsConfiguredAndRefilled : Obligations.BudgetIsConfiguredAndRefilled := by
  refine ⟨fun allowance q tg ta tr k s s1 n h => ⟨fun hbad => ?_, fun hgood => ?_⟩, fun s => ⟨fun h ha htg => ?_, ?_⟩⟩
  · refine exec_refused (by rfl) h (if_pos ?_)
    by_contra hor
    obtain ⟨hnz, hok⟩ := not_or.mp hor
    have := thresholdsOk_iff.mp (Bool.eq_true_of_not_eq_false hok)
    exact hbad ⟨hnz, this.2.2.2, this.2.2.1, this.2.1, this.1⟩
  · obtain ⟨hnz, h1, h2, h3, h4⟩ := hgood
    have hok : thresholdsOk tg.toNat ta.toNat tr.toNat = true := thresholdsOk_iff.mpr ⟨h4, h3, h2, h1⟩
    rw [exec_ok (by rfl) h (if_neg (not_or.mpr ⟨hnz, fun e => Bool.noConfusion (hok.symm.trans e)⟩)),
      Cbu.configured_eq, State.withBudget_eq]
    rfl
  · refine exec_report (Eq.refl (execParkEntryRefill s)) h ?_
    show State.hand { s.take .parkEntryRefill with cbu := s.cbu.refilled } (.budgetTierReport s.cbu.refilled.tier true) = _
    rw [Cbu.refilled_eq ha htg]
    rfl
  · exact fun m h => exec_report (Eq.refl (execModeRecord m s)) h rfl

/-! #### The accounting second (R57, R62 to R69) -/

theorem State.account_eq (s : State) :
    s.account = { s with
      cbu := (s.cbu.debitedBy s.nominalDraw (effectiveDraw s.cbu.blend s.spm.measured s.nominalDraw)
        s.spm.measured).formed
      handed := s.handed
        ++ (if (s.cbu.debitedBy s.nominalDraw (effectiveDraw s.cbu.blend s.spm.measured s.nominalDraw)
            s.spm.measured).formed.tier = s.cbu.tier then []
          else [.budgetTierReport (s.cbu.debitedBy s.nominalDraw
            (effectiveDraw s.cbu.blend s.spm.measured s.nominalDraw) s.spm.measured).formed.tier false])
        ++ (if s.attributionOf = [] then [] else [.attribution s.attributionOf]) } := by
  unfold State.account
  dsimp only
  generalize s.cbu.debitedBy _ _ _ = b
  rw [State.withBudget_eq]
  cases s.attributionOf with
  | nil => rw [if_pos rfl, List.append_nil]; rfl
  | cons e rest => rfl

/-- Settles O33. -/
theorem accountingSecondDebitsTheBudget : Obligations.AccountingSecondDebitsTheBudget := by
  refine ⟨fun d => ?_, fun s hheld => ⟨fun hm => exec_arrive (by rfl) hheld (if_neg hm), fun hm => ?_⟩⟩
  · unfold Domain.intervalDraw
    refine ⟨?_, ?_, ?_, ?_, ?_, ?_⟩ <;> exact fun h => by rw [h]
  · intro d e r
    have hr : r = s.cbu.remaining - e := sub_eq_ite_le _ _
    clear_value r
    subst hr
    exact exec_arrive (by rfl) hheld ((if_pos hm).trans (State.account_eq _))

end Sys2Proof.Machine

/-! ### Time (R99 to R106) -/

namespace Sys2Proof.Machine

variable {c : Instr} {s s1 t u : State} {n : Nat} {st : Status}

/-! #### Timeout codes (R106) -/

/-- Settles O43. The order follows from code to code, the bounds by the table of the 166 codes. -/
theorem timeoutCodesDecodeToDurations : Obligations.TimeoutCodesDecodeToDurations := by
  have hmono : StrictMono fun c : Fin 166 => (duration c).getD 0 := Fin.strictMono_iff_lt_succ.mpr (by decide +kernel)
  have hbounds : ∀ c : Fin 166, 1 ≤ (duration c).getD 1 ∧ (duration c).getD 1 ≤ 86400 := by decide +kernel
  refine ⟨fun c => ⟨fun h => if_pos h, fun h1 h2 => ?_, fun h1 h2 => ?_, fun h => ?_⟩, fun c c' d d' h h' hlt => ?_, fun c d h => ?_,
    fun b => ⟨min_eq_left, fun h => min_eq_right h.le⟩⟩
  · exact (if_neg (Nat.one_le_iff_ne_zero.mp h1)).trans (if_pos h2)
  · exact (if_neg (by omega)).trans ((if_neg (not_le.mpr h1)).trans (if_pos h2))
  · refine (if_neg (by omega)).trans ((if_neg (by omega)).trans ((if_neg (not_le.mpr h)).trans ?_))
    rw [Nat.mul_assoc]
  · have := hmono hlt
    simpa [h, h'] using this
  · have := hbounds c
    simpa [h] using this

/-! #### The clock (R101, R103) -/

/-- The second of the week. -/
def Tmb.weekSecond (c : Tmb) : Nat := (c.day * 1440 + c.minute) * 60 + c.second

theorem Tmb.weekSecond_lt {c : Tmb} (hs : c.second ≤ 59) (hm : c.minute ≤ 1439) (hd : c.day ≤ 6) :
    c.weekSecond < 604800 := by
  unfold Tmb.weekSecond
  omega

/-- Each carry of the clock is a multiplication carried out. -/
theorem Tmb.advanced_weekSecond {c : Tmb} (hs : c.second ≤ 59) (hm : c.minute ≤ 1439) (hd : c.day ≤ 6) :
    c.advanced.weekSecond = (c.weekSecond + 1) % 604800 := by
  obtain ⟨hs', hm', hd'⟩ := Tmb.advanced_bounds hs hm hd
  refine (Nat.mod_eq_of_lt (Tmb.weekSecond_lt hs' hm' hd')).symm.trans ?_
  unfold Tmb.advanced
  obtain ⟨phase, second, minute, day, unset⟩ := c
  dsimp only at hs hm hd ⊢
  by_cases h1 : second < 59
  · rw [if_pos h1]
    rfl
  obtain rfl : second = 59 := le_antisymm hs (not_lt.mp h1)
  rw [if_neg h1]
  by_cases h2 : minute < 1439
  · rw [if_pos h2]
    refine congrArg (· % 604800) ?_
    dsimp only [Tmb.weekSecond]
    omega
  obtain rfl : minute = 1439 := le_antisymm hm (not_lt.mp h2)
  rw [if_neg h2]
  by_cases h3 : day < 6
  · rw [if_pos h3]
    refine congrArg (· % 604800) ?_
    dsimp only [Tmb.weekSecond]
    omega
  obtain rfl : day = 6 := le_antisymm hd (not_lt.mp h3)
  rw [if_neg h3]
  dsimp only [Tmb.weekSecond]

/-- Settles O41. -/
theorem theClockAdvancesWithItsCarries : Obligations.TheClockAdvancesWithItsCarries := by
  intro vbat shunt s hheld hs hm hd
  have hunset : s.tmb.advanced.unset = s.tmb.unset := by
    unfold Tmb.advanced
    repeat' split
    all_goals rfl
  have hweek := Tmb.advanced_weekSecond hs hm hd
  have hbounds := Tmb.advanced_bounds hs hm hd
  generalize hc : s.tmb.advanced = c at hunset hweek hbounds
  refine ⟨_, exec_arrive (Eq.refl (execOneSecondExpiry vbat shunt s)) hheld rfl, ?_⟩
  dsimp only [State.handAll]
  rw [show (s.take _).tmb.advanced = c from hc]
  exact ⟨rfl, rfl, rfl, hunset, hweek, hbounds⟩

/-- Settles O42. -/
theorem setClockWritesTheClockAlone : Obligations.SetClockWritesTheClockAlone := by
  intro day second minute s s1 n h
  refine ⟨fun hbad => exec_refused (by rfl) h (if_pos hbad), fun h1 h2 h3 => ?_⟩
  rw [exec_ok (by rfl) h (if_neg (not_or.mpr ⟨h1.not_gt, not_or.mpr ⟨h2.not_gt, h3.not_gt⟩⟩))]
  simp only [clockBytes, byte, BitVec.ofNat_toNat, BitVec.setWidth_eq]

end Sys2Proof.Machine

/-! ### Arguments and tables (R120, R125, R142, R171) -/

namespace Sys2Proof.Machine

variable {c : Instr} {s s1 t u : State} {n : Nat} {st : Status}

/-! #### Arguments (R199) -/

theorem boolOf_of_range {b : Byte} (h : 1 < b.toNat) : boolOf b = none :=
  (if_neg fun e => by subst e; exact absurd h (by decide)).trans
    (if_neg fun e => by subst e; exact absurd h (by decide))

theorem byte_eq_zero_or_one {b : Byte} (h : b.toNat ≤ 1) : b = 0 ∨ b = 1 := by
  rcases Nat.le_one_iff_eq_zero_or_eq_one.mp h with e | e
  · exact .inl (BitVec.eq_of_toNat_eq e)
  · exact .inr (BitVec.eq_of_toNat_eq e)

theorem boolOf_of_le {b : Byte} (h : b.toNat ≤ 1) : boolOf b = some (b == 1) := by
  rcases byte_eq_zero_or_one h with rfl | rfl <;> rfl

theorem yesNo_of_le {b : Byte} (h : b.toNat ≤ 1) : yesNo (b == 1) = [b] := by
  rcases byte_eq_zero_or_one h with rfl | rfl <;> rfl

theorem indexOf_of_range {k : Nat} {b : Byte} (h : k ≤ b.toNat) : indexOf k b = none := dif_neg h.not_gt

theorem indexOf_of_eq {k : Nat} {b : Byte} {i : Fin k} (h : b.toNat = i.val) : indexOf k b = some i :=
  (dif_pos (h ▸ i.isLt)).trans (congrArg some (Fin.ext h))

theorem ofNat_of_eq {b : Byte} {k : Nat} (h : b.toNat = k) : BitVec.ofNat 8 k = b := by
  rw [← h, BitVec.ofNat_toNat, BitVec.setWidth_eq]

theorem identOf_of_range {w : BitVec 16} (h : 0x7FF < w.toNat) : identOf w = none := if_neg h.not_ge

theorem identOf_of_le {w : BitVec 16} (h : w.toNat ≤ 0x7FF) : identOf w = some (w.setWidth 11) :=
  (if_pos h).trans (congrArg some (BitVec.eq_of_toNat_eq (by simp)))

theorem toNat_setWidth_of_le {w : BitVec 16} (h : w.toNat ≤ 0x7FF) : (w.setWidth 11).toNat = w.toNat := by
  rw [BitVec.toNat_setWidth]
  exact Nat.mod_eq_of_lt (Nat.lt_succ_of_le h)

theorem capOf_getD (cap : BitVec 32) : (capOf cap).getD 0 = cap.toNat := by
  unfold capOf presentOf
  split
  · exact Eq.symm ‹_›
  · rfl

/-! #### TEMPLATE_CONFIG (R142) -/

theorem templateOf_of_bad {mask : BitVec 16} {cls code coalesce : Byte} {cap : BitVec 32}
    (h : mask.setWidth 12 = 0 ∨ 7 < cls.toNat ∨ 1 < coalesce.toNat) : templateOf mask cls code cap coalesce = none := by
  unfold templateOf
  rcases h with h | h | h
  · rw [maskOf_eq, h]
    cases indexOf 8 cls <;> cases boolOf coalesce <;> rfl
  · rw [indexOf_of_range h]
  · rw [boolOf_of_range h]
    cases indexOf 8 cls <;> rfl

theorem templateOf_of_good {mask : BitVec 16} {cls code coalesce : Byte} {cap : BitVec 32} {k : Fin 8}
    (hmask : mask.setWidth 12 ≠ 0) (hcls : cls.toNat = k.val) (hco : coalesce.toNat ≤ 1) :
    templateOf mask cls code cap coalesce = some
      { mask := mask.setWidth 12, cls := k, code := clampCode code, cap := capOf cap, coalesce := coalesce == 1 } := by
  unfold templateOf
  rw [indexOf_of_eq hcls, boolOf_of_le hco]
  exact (if_neg (maskOf_eq mask ▸ hmask)).trans (by rw [maskOf_eq])

theorem templateBytes_eq {mask : BitVec 16} {cls code coalesce : Byte} {cap : BitVec 32} {k : Fin 8}
    (hcls : cls.toNat = k.val) (hco : coalesce.toNat ≤ 1) :
    templateBytes { mask := mask.setWidth 12, cls := k, code := clampCode code, cap := capOf cap, coalesce := coalesce == 1 }
      = beBytes 2 (mask.setWidth 12).toNat ++ [cls, BitVec.ofNat 8 (clampCode code).val] ++ beBytes 4 cap.toNat
        ++ [coalesce] := by
  unfold templateBytes
  dsimp only
  rw [capOf_getD, yesNo_of_le hco, ← ofNat_of_eq hcls]
  rfl

/-! #### FILTER_CONFIG (R125) -/

theorem dataCondOf_one {index value valueMask : Byte} {k : Fin 8} (hk : index.toNat = k.val) :
    dataCondOf 1 index value valueMask = some (some { index := k, value := value, valueMask := valueMask }) := by
  show (indexOf 8 index).map _ = _
  rw [indexOf_of_eq hk]
  rfl

theorem dataCondOf_of_bad {dataFlag index value valueMask : Byte}
    (h : 1 < dataFlag.toNat ∨ (dataFlag = 1 ∧ 7 < index.toNat)) : dataCondOf dataFlag index value valueMask = none := by
  unfold dataCondOf
  rcases h with h | ⟨rfl, h⟩
  · rw [boolOf_of_range h]
  · show (indexOf 8 index).map _ = none
    rw [indexOf_of_range h]
    rfl

theorem filterOf_of_bad {enable dataFlag index value valueMask : Byte} {ident mask : BitVec 16}
    (h : 1 < enable.toNat ∨ 0x7FF < ident.toNat ∨ 0x7FF < mask.toNat ∨ 1 < dataFlag.toNat
        ∨ (dataFlag = 1 ∧ 7 < index.toNat)) : filterOf enable ident mask dataFlag index value valueMask = none := by
  unfold filterOf
  rcases h with h | h | h | h
  · rw [boolOf_of_range h]
  · rw [identOf_of_range h]
    cases boolOf enable <;> rfl
  · rw [identOf_of_range h]
    cases boolOf enable <;> cases identOf ident <;> rfl
  · rw [dataCondOf_of_bad h]
    cases boolOf enable <;> cases identOf ident <;> cases identOf mask <;> rfl

theorem filterOf_of_good {enable dataFlag index value valueMask : Byte} {ident mask : BitVec 16}
    {d : Option DataCond} (he : enable.toNat ≤ 1) (hi : ident.toNat ≤ 0x7FF) (hm : mask.toNat ≤ 0x7FF)
    (hd : dataCondOf dataFlag index value valueMask = some d) :
    filterOf enable ident mask dataFlag index value valueMask = some
      { enable := enable == 1, ident := ident.setWidth 11, mask := mask.setWidth 11, data := d } := by
  unfold filterOf
  rw [boolOf_of_le he, identOf_of_le hi, identOf_of_le hm, hd]

theorem filterBytes_eq {enable : Byte} {ident mask : BitVec 16} (he : enable.toNat ≤ 1) (hi : ident.toNat ≤ 0x7FF)
    (hm : mask.toNat ≤ 0x7FF) (d : Option DataCond) :
    filterBytes { enable := enable == 1, ident := ident.setWidth 11, mask := mask.setWidth 11, data := d }
      = [enable] ++ beBytes 2 ident.toNat ++ beBytes 2 mask.toNat ++ (match d with
        | none => [0, 0, 0, 0]
        | some c => [1, BitVec.ofNat 8 c.index.val, c.value, c.valueMask]) := by
  unfold filterBytes
  cases d <;> rw [yesNo_of_le he, toNat_setWidth_of_le hi, toNat_setWidth_of_le hm]

/-- Settles O51. -/
theorem templatesAndFiltersAreStored : Obligations.TemplatesAndFiltersAreStored := by
  refine ⟨fun template cls code coalesce mask cap s s1 n h => ⟨fun hbad => ?_, fun i hi hmask k hk hco => ?_⟩,
    fun filter enable dataFlag index value valueMask ident mask s s1 n h => ⟨fun hbad => ?_, fun i hf he hi hm => ?_⟩⟩
  · refine exec_refused (by rfl) h ?_
    rcases hbad with hbad | hbad
    · rw [indexOf_of_range hbad]
    · rw [templateOf_of_bad hbad]
      cases indexOf 16 template <;> rfl
  · refine exec_ok (by rfl) h ?_
    rw [indexOf_of_eq hi, templateOf_of_good hmask hk hco, ← presentOf_toNat, ← templateBytes_eq hk hco]
    rfl
  · refine exec_refused (by rfl) h ?_
    rcases hbad with hbad | hbad
    · rw [indexOf_of_range hbad]
    · rw [filterOf_of_bad hbad]
      cases indexOf 8 filter <;> rfl
  · refine ⟨fun h0 => ?_, fun h1 k hk => ?_⟩
    · subst h0
      refine exec_ok (by rfl) h ?_
      rw [indexOf_of_eq hf, filterOf_of_good he hi hm (d := none) rfl]
      exact congrArg (Prod.mk _) (congrArg Reply.ok (filterBytes_eq he hi hm none))
    · subst h1
      refine exec_ok (by rfl) h ?_
      rw [indexOf_of_eq hf, filterOf_of_good he hi hm (dataCondOf_one hk), ← ofNat_of_eq hk]
      exact congrArg (Prod.mk _) (congrArg Reply.ok (filterBytes_eq he hi hm (some _)))

end Sys2Proof.Machine

/-! ### The mode (R163 to R168) -/

namespace Sys2Proof.Machine

variable {c : Instr} {s s1 t u : State} {n : Nat} {st : Status} {b : Bool}

/-- A level on an input, taken outside power-on reset. -/
theorem exec_edge {f : State → State} {r : Result} (he : exec c s = if s.held then r else arrive c s f)
    (h : s.held = false) (hf : f (s.take c) = u) : exec c s = .next u := by
  rw [he, if_neg (Bool.eq_false_iff.mp h), arrive_next h, hf]

theorem State.ignitionChanged_on (hb : b = true) (hm : s.mdc.mode ≠ .run) : s.ignitionChanged b = s.enterRun := by
  subst hb
  unfold State.ignitionChanged
  cases h : s.mdc.mode with
  | run => exact absurd h hm
  | parkPending => rfl
  | park => rfl

theorem State.ignitionChanged_wait (hb : b = false) (hm : s.mdc.mode = .run) (hd : 0 < s.mdc.parkDelay) :
    s.ignitionChanged b = s.enterParkPending := by
  subst hb
  unfold State.ignitionChanged
  rw [hm]
  exact if_neg (Nat.ne_of_gt hd)

theorem State.ignitionChanged_park (hb : b = false) (hm : s.mdc.mode = .run) (hd : s.mdc.parkDelay = 0) :
    s.ignitionChanged b = s.enterPark := by
  subst hb
  unfold State.ignitionChanged
  rw [hm]
  exact if_pos hd

theorem State.ignitionChanged_same (h : s.mdc.mode = .run ↔ b = true) : s.ignitionChanged b = s := by
  unfold State.ignitionChanged
  cases b with
  | true => rw [h.mpr rfl]
  | false =>
    cases hm : s.mdc.mode with
    | run => exact absurd (h.mp hm) Bool.false_ne_true
    | parkPending => rfl
    | park => rfl

/-- Settles O54. -/
theorem ignitionMovesTheMode : Obligations.IgnitionMovesTheMode := by
  refine ⟨fun high s hheld => ⟨fun hsame => exec_edge (Eq.refl (execIgnChange high s)) hheld (if_pos hsame), fun hne => ⟨fun hm => ?_, fun hm => ?_⟩⟩,
    fun s hheld => ⟨fun htimer => ⟨fun hign hmode => ?_, fun hign hmode hdelay => ?_, fun hign hmode hdelay => ?_,
      fun hiff => ?_⟩, fun htimer => ?_, fun hmode => exec_arrive (Eq.refl (execParkDelayExpiry s)) hheld (if_pos hmode),
      fun hmode => exec_arrive (Eq.refl (execParkDelayExpiry s)) hheld (if_neg hmode), fun n s1 h => ⟨fun hmode => ?_, fun hmode => ?_⟩⟩⟩
  · refine exec_edge (Eq.refl (execIgnChange high s)) hheld ((if_neg hne).trans ?_)
    rw [if_neg (show ¬ high = (s.take (.ignChange high)).mdc.ign from hm)]
    rfl
  · refine exec_edge (Eq.refl (execIgnChange high s)) hheld ((if_neg hne).trans ?_)
    rw [if_pos (show high = (s.take (.ignChange high)).mdc.ign from hm)]
    rfl
  · exact exec_arrive (Eq.refl (execIgnDebounceExpiry s)) hheld ((if_pos htimer).trans (State.ignitionChanged_on hign hmode))
  · exact exec_arrive (Eq.refl (execIgnDebounceExpiry s)) hheld ((if_pos htimer).trans (State.ignitionChanged_wait hign hmode hdelay))
  · exact exec_arrive (Eq.refl (execIgnDebounceExpiry s)) hheld ((if_pos htimer).trans (State.ignitionChanged_park hign hmode hdelay))
  · exact exec_arrive (Eq.refl (execIgnDebounceExpiry s)) hheld ((if_pos htimer).trans (State.ignitionChanged_same hiff))
  · refine exec_arrive (Eq.refl (execIgnDebounceExpiry s)) hheld (if_neg fun h => ?_)
    exact Bool.false_ne_true ((congrArg Option.isSome htimer).symm.trans h)
  · refine exec_ok (by rfl) h ?_
    rw [hmode]
    rfl
  · refine exec_refused (by rfl) h ?_
    cases hm : s1.mdc.mode with
    | run => rfl
    | parkPending => exact absurd hm hmode
    | park => rfl

end Sys2Proof.Machine

/-! ### The supply monitor (R154 to R162) -/

namespace Sys2Proof.Machine

variable {c : Instr} {s s1 t u : State} {n : Nat} {st : Status} {b : Bool} {serial : Option Nat}

/-! #### Conversions (R154 to R160) -/

theorem voltageCode_eq (vbat : Nat) : ((voltageCode vbat : Nat) : Int) = max 0 (min 255 (((vbat : Int) - 6000) / 50)) := by
  unfold voltageCode
  rcases le_total vbat 6000 with h | h
  · rw [Nat.sub_eq_zero_of_le h]
    exact (max_eq_left ((min_le_right _ _).trans (Int.ediv_nonpos_of_nonpos_of_neg (by omega) (by decide)))).symm
  · obtain ⟨k, rfl⟩ := Nat.exists_eq_add_of_le h
    rw [Nat.add_sub_cancel_left, Nat.cast_add, Nat.cast_ofNat, add_sub_cancel_left, min_comm, Nat.cast_min, Nat.cast_ofNat,
      Int.natCast_div, Nat.cast_ofNat]
    exact (max_eq_right (le_min (by decide) (Int.ediv_nonneg (Int.natCast_nonneg k) (by decide)))).symm

/-- The flags of a conversion in one setting: VOLTAGE_CEILING and CAL_ENDED (R155, R160). -/
def conversionFlags (before after : Tier) : Bool → List Instr
  | true => if after = before then [.flagSetting 0x8000] else [.flagSetting 0xA000]
  | false => if after = before then [] else [.flagSetting 0x2000]

theorem handAll_raise_conversion (s : State) (before after : Tier) (ended : Bool) :
    (s.handAll (if (after != before) = true then [.voltageCeilingReport after] else [])).raise
      ((if (after != before) = true then [Flag.voltageCeiling] else []) ++ (if ended = true then [Flag.calEnded] else []))
    = { s with handed := s.handed ++ (if after = before then [] else [.voltageCeilingReport after])
          ++ conversionFlags before after ended } := by
  refine (State.raise_eq _ _).trans (congrArg (fun told => { s with handed := told }) ?_)
  rw [State.handAll_handed]
  by_cases h : after = before
  · rw [bne_eq_false_iff_eq.mpr h, if_pos h]
    cases ended <;> exact congrArg (s.handed ++ [] ++ ·) (if_pos h).symm
  · rw [bne_iff_ne.mpr h, if_neg h]
    cases ended <;> exact congrArg (s.handed ++ [.voltageCeilingReport after] ++ ·) (if_neg h).symm

/-- A conversion, by what the current part of it makes of the monitor: the report of a changed ceiling, then the flags
in one setting (R154 to R160). -/
theorem exec_voltageConversion {vbat : Nat} {shunt : Int} (hheld : s.held = false) {m : Spm} {ended : Bool}
    (h : (s.spm.convertVoltage vbat).convertCurrent (rawReading shunt) = (m, ended)) :
    exec (.voltageConversion vbat shunt) s = .next { s with
      spm := m
      handed := s.handed.erase (.voltageConversion vbat shunt)
        ++ (if (s.spm.convertVoltage vbat).ceiling = s.spm.ceiling then []
          else [.voltageCeilingReport (s.spm.convertVoltage vbat).ceiling])
        ++ conversionFlags s.spm.ceiling (s.spm.convertVoltage vbat).ceiling ended } := by
  refine exec_arrive (Eq.refl (execVoltageConversion vbat shunt s)) hheld ?_
  dsimp only
  rw [show (s.take (.voltageConversion vbat shunt)).spm = s.spm from rfl, h]
  exact handAll_raise_conversion _ _ _ _

theorem convertCurrent_monitored {m : Spm} {raw : Int} (hcal : m.cal ≠ .running) (hm : m.monitor = true) :
    m.convertCurrent raw = ({ m with lastRaw := some raw, measured := some (measuredOf raw m.offset) }, false) :=
  (if_neg hcal).trans (if_pos hm)

theorem convertCurrent_off {m : Spm} {raw : Int} (hcal : m.cal ≠ .running) (hm : m.monitor = false) :
    m.convertCurrent raw = (m, false) :=
  (if_neg hcal).trans (if_neg (Bool.eq_false_iff.mp hm))

theorem convertCurrent_sample {m : Spm} {raw : Int} (hcal : m.cal = .running) (hcount : m.calCount < 3) :
    m.convertCurrent raw = (m.sampled raw, false) :=
  (if_pos hcal).trans (if_neg (Nat.not_le_of_lt (Nat.succ_lt_succ hcount)))

theorem convertCurrent_fourth {m : Spm} {raw : Int} (hcal : m.cal = .running) (hcount : m.calCount = 3) :
    m.convertCurrent raw = ((m.sampled raw).completed, true) :=
  (if_pos hcal).trans (if_pos (Nat.le_of_eq (congrArg (· + 1) hcount.symm)))

/-- Settles O52. The current part of a conversion decides the case, `exec_voltageConversion` what is handed over. -/
theorem conversionsFormCodeCeilingAndCurrent : Obligations.ConversionsFormCodeCeilingAndCurrent := by
  refine ⟨⟨voltageCode_eq, fun v vlow vcrit => ⟨fun h => if_pos h, fun h1 h2 => (if_neg h1).trans (if_pos h2),
    fun h1 h2 => (if_neg h1).trans (if_neg h2), fun h => if_pos h, fun h1 h2 => (if_neg h1).trans (if_pos h2),
    fun h1 h2 => (if_neg h1).trans (if_neg h2), fun h => if_pos h, fun h1 h2 => (if_neg h1).trans (if_pos h2),
    fun h1 h2 => (if_neg h1).trans (if_neg h2), fun before h => ceilingAfter_ne_amber h _ _ _⟩⟩,
    fun vbat shunt s hheld => ?_⟩
  refine ⟨fun hcal hm => ?_, fun hcal hm => ?_, fun hcal hcount => ?_, fun hcal hcount hlo hhi => ?_,
    fun hcal hcount hout => ?_⟩
  · exact exec_voltageConversion hheld (convertCurrent_monitored hcal hm)
  · exact exec_voltageConversion hheld (convertCurrent_off hcal hm)
  · exact exec_voltageConversion hheld (convertCurrent_sample hcal hcount)
  · exact exec_voltageConversion hheld ((convertCurrent_fourth (m := s.spm.convertVoltage vbat) hcal hcount).trans
      (congrArg (fun m => (m, true)) (if_pos ⟨hlo, hhi⟩)))
  · exact exec_voltageConversion hheld ((convertCurrent_fourth (m := s.spm.convertVoltage vbat) hcal hcount).trans
      (congrArg (fun m => (m, true)) (if_neg fun h => hout.elim h.1.not_gt h.2.not_gt)))

/-! #### Calibration (R159 to R161, R192) -/

theorem State.abortCalibration_running (h : s.spm.cal = .running) :
    s.abortCalibration = ({ s with
      spm := { s.spm with cal := .aborted, calCount := 0, calSum := 0, shorted := false } } : State).hand
        (.flagSetting 0x8000) := if_pos h

/-- The abort of a mode change, taken (R161). -/
theorem exec_modeAbort (hheld : s.held = false)
    (hin : .calibrationAbort ∈ s.handed ∧ ¬ (s.abortsMeet = true ∧ Config.clearAbortFirst s.choices = true)) :
    exec .calibrationAbort s =
      .next (((if s.abortsMeet then s.countChoice else s).take .calibrationAbort).abortCalibration) := by
  show execCalibrationAbort s = _
  rcases execCalibrationAbort_cases s with ⟨h, -⟩ | ⟨-, s0, rfl, ⟨-, -, e⟩ | ⟨h, -⟩⟩
  · exact Bool.noConfusion (hheld.symm.trans h)
  · have hheld0 : (if s.abortsMeet then s.countChoice else s).held = false := by split <;> exact hheld
    exact e.trans (arrive_next hheld0)
  · exact absurd (h hin.1) hin.2

/-- The abort of a CLEAR, taken (R161, R191). -/
theorem exec_clearAbort (hheld : s.held = false)
    (hof : .calibrationAbort ∈ s.handed → s.abortsMeet = true ∧ Config.clearAbortFirst s.choices = true)
    (h : TakesPart .calibrationAbort (if s.abortsMeet then s.countChoice else s) s1) :
    exec .calibrationAbort s = .next (s1.abortByClear (s.ctp.partSerial .calibrationAbort)) := by
  show execCalibrationAbort s = _
  rcases execCalibrationAbort_cases s with ⟨h', -⟩ | ⟨-, s0, rfl, ⟨hin, hne, -⟩ | ⟨-, e⟩⟩
  · exact Bool.noConfusion (hheld.symm.trans h')
  · exact absurd (hof hin) hne
  · have hctp : (if s.abortsMeet then s.countChoice else s).ctp = s.ctp := by split <;> rfl
    rw [e, ← hctp]
    exact portPart_of_takes h

/-- Taking the abort leaves the clearing of the same CLEAR where it stands (R191). -/
theorem clearingToCome_of_takesPart (h : partTake .calibrationAbort s = some s1) :
    s1.endedByClear = s.endedByClear
    ∧ (s1.ctp.clearingToCome serial = true ↔ ∀ n, serial = some n → (n, .clearFlags) ∈ s.ctp.outstanding) := by
  refine ⟨by rcases partTake_cases h with ⟨k, -, rfl⟩ | ⟨-, rfl⟩ <;> rfl, ?_⟩
  have hmem : ∀ n, (n, Instr.clearFlags) ∈ s1.ctp.outstanding ↔ (n, Instr.clearFlags) ∈ s.ctp.outstanding := by
    intro n
    rcases partTake_cases h with ⟨k, -, rfl⟩ | ⟨-, rfl⟩
    · exact List.mem_erase_of_ne fun e => by cases e
    · exact Iff.rfl
  unfold Ctp.clearingToCome
  cases serial with
  | none => exact iff_of_true rfl fun _ h => by cases h
  | some n =>
    dsimp only
    rw [List.any_eq_true]
    refine ⟨fun ⟨e, he, heq⟩ k hk => ?_, fun hall => ⟨_, (hmem n).mpr (hall n rfl), decide_eq_true rfl⟩⟩
    cases hk
    exact (hmem n).mp (of_decide_eq_true heq ▸ he)

theorem State.abortByClear_marked (h : s.spm.cal = .running) (hc : s.ctp.clearingToCome serial = true) :
    s.abortByClear serial = ({ s with
      spm := { s.spm with cal := .aborted, calCount := 0, calSum := 0, shorted := false }
      endedByClear := s.endedByClear ++ [serial] } : State).hand (.flagSetting 0x8000) :=
  (if_pos ⟨h, hc⟩).trans (by rw [State.abortCalibration_running h]; rfl)

/-- All that a CALIBRATION_ABORT taken in the state `s1` does, where `ofClear` tells of a CLEAR's (R161, R192). -/
theorem exec_calibrationAbort (hheld : s.held = false) {ofClear : Prop}
    (hof : ofClear ↔ .calibrationAbort ∉ s.handed ∨ (s.abortsMeet = true ∧ Config.clearAbortFirst s.choices = true))
    (h : (ofClear ∧ TakesPart .calibrationAbort (if s.abortsMeet then s.countChoice else s) s1)
      ∨ (¬ ofClear ∧ s1 = (if s.abortsMeet then s.countChoice else s).take .calibrationAbort)) :
    (ofClear ∧ s1.endedByClear = s.endedByClear
      ∧ (s1.ctp.clearingToCome (s.ctp.partSerial .calibrationAbort) = true ↔
        ∀ n, s.ctp.partSerial .calibrationAbort = some n → (n, .clearFlags) ∈ s.ctp.outstanding)
      ∧ exec .calibrationAbort s = .next (s1.abortByClear (s.ctp.partSerial .calibrationAbort)))
    ∨ (¬ ofClear ∧ exec .calibrationAbort s = .next s1.abortCalibration) := by
  rcases h with ⟨ho, htake⟩ | ⟨hno, rfl⟩
  · have hexec := exec_clearAbort hheld (fun hin => (hof.mp ho).resolve_left (not_not_intro hin)) htake
    have hmarks := clearingToCome_of_takesPart (serial := s.ctp.partSerial .calibrationAbort) htake.2
    have hs0 : (if s.abortsMeet then s.countChoice else s).endedByClear = s.endedByClear
        ∧ (if s.abortsMeet then s.countChoice else s).ctp = s.ctp := by split <;> exact ⟨rfl, rfl⟩
    rw [hs0.1, hs0.2] at hmarks
    exact .inl ⟨ho, hmarks.1, hmarks.2, hexec⟩
  · obtain ⟨hin, hne⟩ := not_or.mp fun h => hno (hof.mpr h)
    exact .inr ⟨hno, exec_modeAbort hheld ⟨not_not.mp hin, hne⟩⟩

/-- A fourth sample taken on its own (R160; log 9). -/
theorem exec_calibrationCompletion {shunt : Int} (hheld : s.held = false) (hcal : s.spm.cal = .running)
    (hcount : s.spm.calCount = 3) :
    exec (.calibrationCompletion shunt) s = .next (({ s.take (.calibrationCompletion shunt) with
      spm := (s.spm.sampled (rawReading shunt)).completed } : State).hand (.flagSetting 0x8000)) :=
  exec_arrive (Eq.refl (execCalibrationCompletion shunt s)) hheld (if_pos ⟨hcal, congrArg (· + 1) hcount⟩)

/-- Settles O53. -/
theorem calibrationAndSettingsAreTaken : Obligations.CalibrationAndSettingsAreTaken := by
  refine ⟨⟨fun s s1 n h => ⟨fun hrun => exec_refused (by rfl) h (if_pos hrun),
      fun hrun => exec_ok (by rfl) h (if_neg hrun)⟩, ?_, ?_⟩, ?_, ?_, ?_⟩
  · intro s s1 hheld part meet ofClear s0 htake serial before
    have hof : ofClear ↔ _ := Iff.or Iff.rfl (Iff.and (State.abortsMeet_iff s).symm Iff.rfl)
    have hs0 : s0 = if s.abortsMeet then s.countChoice else s := if_congr (State.abortsMeet_iff s).symm rfl rfl
    clear_value s0
    subst hs0
    rcases exec_calibrationAbort hheld hof htake with ⟨ho, hmarks, hclear, hexec⟩ | ⟨hno, hexec⟩
    · refine ⟨fun hrun => ⟨fun hb => ?_, fun hb => ?_⟩, fun hrun => ?_⟩
      · rw [hexec, State.abortByClear_marked hrun (hclear.mpr hb.2), hmarks]
        rfl
      · exact hexec.trans (congrArg Host.Outcome.next ((if_neg fun h => hb ⟨ho, hclear.mp h.2⟩).trans
          (State.abortCalibration_running hrun)))
      · exact hexec.trans (congrArg Host.Outcome.next ((if_neg fun h => hrun h.1).trans (if_neg hrun)))
    · exact ⟨fun hrun => ⟨fun hb => absurd hb.1 hno, fun _ =>
        hexec.trans (congrArg Host.Outcome.next (State.abortCalibration_running hrun))⟩,
        fun hrun => hexec.trans (congrArg Host.Outcome.next (if_neg hrun))⟩
  · intro shunt s hheld
    refine ⟨fun hcal hcount => (exec_calibrationCompletion hheld hcal hcount).trans ?_, fun hor =>
      exec_arrive (Eq.refl (execCalibrationCompletion shunt s)) hheld
        (if_neg fun h => hor.elim (· h.1) (· (Nat.succ.inj h.2)))⟩
    have hstored : s.spm.sampled (rawReading shunt) = { s.spm with
        lastRaw := some (max (-1024) (min shunt 16383)), calSum := s.spm.calSum + max (-1024) (min shunt 16383),
        calCount := 4 } := by
      unfold Spm.sampled
      rw [hcount]
      rfl
    rw [hstored]
    rfl
  · intro vlow vcrit s s1 n h
    exact ⟨fun hlt => exec_refused (by rfl) h (if_neg (Nat.not_le_of_lt hlt)),
      fun hle => exec_ok (by rfl) h (if_pos hle)⟩
  · intro enable s s1 n h
    refine ⟨fun hgt => exec_refused (Eq.refl (execCurrentConfig enable s)) h ?_, fun h0 => ?_, fun h1 => ?_⟩
    · rw [boolOf_of_range hgt]
    · subst h0
      exact exec_ok (by rfl) h (by rfl)
    · subst h1
      exact exec_ok (by rfl) h (by rfl)
  · exact fun delay s s1 n h => exec_ok (by rfl) h (by rfl)

end Sys2Proof.Machine

/-! ### Service frames (R175, R176, R203) -/

namespace Sys2Proof.Machine

variable {c : Instr} {s s1 t u : State} {n : Nat} {st : Status} {b : Bool}

/-- Settles O1. -/
theorem stepTakesTheFrontCommand : Obligations.StepTakesTheFrontCommand := fun _ _ _ => rfl

/-! #### The decode (R175) -/

theorem toNat_append_byte {w : Nat} (x : BitVec w) (y : Byte) : (x ++ y).toNat = x.toNat * 256 + y.toNat := by
  rw [BitVec.toNat_append, ← Nat.shiftLeft_add_eq_or_of_lt y.isLt, Nat.shiftLeft_eq]

theorem mul_add_div_of_lt {a r k : Nat} (h : r < k) : (a * k + r) / k = a := by
  rw [Nat.mul_comm, Nat.mul_add_div (Nat.zero_lt_of_lt h), Nat.div_eq_of_lt h, Nat.add_zero]

theorem handleOf_append (x y : Byte) :
    handleOf (x ++ y) = { slot := (x.setWidth 6).toFin, gen := y.setWidth 4 } := by
  have hslot : (handleOf (x ++ y)).slot = (x.setWidth 6).toFin := by
    refine Fin.ext ?_
    rw [handleOf_slot, toNat_append_byte, BitVec.toFin_setWidth]
    exact congrArg (· % 64) (mul_add_div_of_lt y.isLt)
  have hgen : (handleOf (x ++ y)).gen = y.setWidth 4 := by
    refine BitVec.eq_of_toNat_eq ?_
    rw [handleOf_gen, toNat_append_byte, BitVec.toNat_setWidth, show 256 = 16 * 16 from rfl, ← Nat.mul_assoc]
    exact Nat.mul_add_mod_self_right _ _ _
  exact congr (congrArg Handle.mk hslot) hgen

theorem maskOf_append (x y : Byte) : maskOf (x ++ y) = x.setWidth 4 ++ y := by
  rw [maskOf_eq]
  refine BitVec.eq_of_toNat_eq ?_
  rw [BitVec.toNat_setWidth, toNat_append_byte, toNat_append_byte, BitVec.toNat_setWidth, show 2 ^ 12 = 256 * 16 from rfl,
    Nat.mod_mul, mul_add_div_of_lt y.isLt, Nat.mul_add_mod_self_right, Nat.mod_eq_of_lt y.isLt, Nat.add_comm, Nat.mul_comm]

/-- Bits of a number of 24 bits. -/
theorem extractLsb'_ofNat_div (v k m : Nat) (h : k + m ≤ 24) :
    (BitVec.ofNat 24 v).extractLsb' k m = BitVec.ofNat m (v / 2 ^ k) := by
  refine BitVec.eq_of_toNat_eq ?_
  rw [BitVec.extractLsb'_toNat, BitVec.toNat_ofNat, BitVec.toNat_ofNat, Nat.shiftRight_eq_div_pow,
    ← Nat.add_sub_of_le ((Nat.le_add_right k m).trans h), Nat.pow_add, Nat.mod_mul_right_div_self]
  exact Nat.mod_mod_of_dvd _ (Nat.pow_dvd_pow 2 (Nat.le_sub_of_add_le' h))

theorem judgeService_of_op {f : List Byte} (hop : ¬ ((arg8 f 0).toNat = 0 ∨ (arg8 f 0).toNat > 4))
    (hn : (arg8 f 1).toNat ≤ 31) :
    judgeService f =
      if (arg8 f 0).toNat = 1 then
        .operation (.networkRequest (arg8 f 1) (maskOf (arg16 f 2)) (arg8 f 4) (arg8 f 5) ((arg8 f 6).extractLsb' 0 4))
      else if (arg8 f 0).toNat = 2 then .operation (.networkRenew (arg8 f 1) (handleOf (arg16 f 2)) (arg8 f 4))
      else if (arg8 f 0).toNat = 3 then .operation (.networkRelease (arg8 f 1) (handleOf (arg16 f 2)))
      else .operation (.networkQuery (arg8 f 1) (handleOf (arg16 f 2))) :=
  (if_neg hop).trans (if_neg hn.not_gt)

/-! #### The answers (R176) -/

/-- The answer that carries a record, with its state word in three bytes. -/
theorem recordAnswer_eq (op node : Byte) (h : Handle) (v : Nat) :
    answerBytes .ok op node (handleBytes h ++ beBytes 3 v) = [0, op, node, BitVec.ofNat 8 h.slot.val, h.gen.setWidth 8,
      (BitVec.ofNat 24 v).extractLsb' 16 8, (BitVec.ofNat 24 v).extractLsb' 8 8, (BitVec.ofNat 24 v).extractLsb' 0 8] := by
  rw [extractLsb'_ofNat_div _ _ _ (by decide), extractLsb'_ofNat_div _ _ _ (by decide),
    extractLsb'_ofNat_div _ _ _ (by decide)]
  rfl

/-- The parts of a state word. -/
theorem stateWord_parts {state reason time : Nat} (hr : reason ≤ 2) (ht : time < 2 ^ 20) :
    (BitVec.ofNat 24 (state * 4194304 + reason * 1048576 + time)).extractLsb' 22 2 = BitVec.ofNat 2 state
    ∧ (BitVec.ofNat 24 (state * 4194304 + reason * 1048576 + time)).extractLsb' 20 2 = BitVec.ofNat 2 reason
    ∧ (BitVec.ofNat 24 (state * 4194304 + reason * 1048576 + time)).extractLsb' 0 20 = BitVec.ofNat 20 time := by
  have hv : state * 4194304 + reason * 1048576 + time = (state * 4 + reason) * 2 ^ 20 + time := by ring
  rw [hv, extractLsb'_ofNat_div _ _ _ (by decide), extractLsb'_ofNat_div _ _ _ (by decide),
    extractLsb'_ofNat_div _ _ _ (by decide), mul_add_div_of_lt ht, Nat.pow_add 2 20 2, ← Nat.div_div_eq_div_mul,
    mul_add_div_of_lt ht, mul_add_div_of_lt (Nat.lt_of_le_of_lt hr (by decide)), Nat.pow_zero, Nat.div_one]
  refine ⟨rfl, BitVec.eq_of_toNat_eq ?_, BitVec.eq_of_toNat_eq ?_⟩
  · rw [BitVec.toNat_ofNat, BitVec.toNat_ofNat]
    exact Nat.mul_add_mod_self_right _ _ _
  · rw [BitVec.toNat_ofNat, BitVec.toNat_ofNat]
    exact Nat.mul_add_mod_self_right _ _ _

/-- Settles O57. -/
theorem serviceFramesAreDecodedAndAnswered : Obligations.ServiceFramesAreDecodedAndAnswered := by
  refine ⟨fun op node b2 b3 b4 b5 b6 b7 => ⟨fun h => if_pos ?_, fun h1 h4 hn => ?_, fun hn => ?_⟩, ?_, fun _ _ _ => rfl,
    fun _ _ => rfl, fun op _ _ _ => by cases op <;> rfl, ?_⟩
  · exact h.imp (fun e => by subst e; rfl) id
  · exact (if_neg fun h => h.elim (Nat.ne_of_gt h1) h4.not_gt).trans (if_pos hn)
  · refine ⟨fun e => ?_, fun e => ?_, fun e => ?_, fun e => ?_⟩ <;> subst e
    · refine (judgeService_of_op (f := [1, node, b2, b3, b4, b5, b6, b7]) (of_decide_eq_false rfl) hn).trans ((if_pos rfl).trans ?_)
      rw [show maskOf (arg16 [1, node, b2, b3, b4, b5, b6, b7] 2) = _ from maskOf_append b2 b3]
      exact congrArg (fun tag => ServiceVerdict.operation (.networkRequest node _ b4 b5 tag))
        (BitVec.eq_of_toNat_eq (by simp; rfl))
    · exact (judgeService_of_op (f := [2, node, b2, b3, b4, b5, b6, b7]) (of_decide_eq_false rfl) hn).trans ((if_neg (of_decide_eq_false rfl)).trans
        ((if_pos rfl).trans (congrArg (fun h => ServiceVerdict.operation (.networkRenew node h b4)) (handleOf_append b2 b3))))
    · exact (judgeService_of_op (f := [3, node, b2, b3, b4, b5, b6, b7]) (of_decide_eq_false rfl) hn).trans ((if_neg (of_decide_eq_false rfl)).trans
        ((if_neg (of_decide_eq_false rfl)).trans ((if_pos rfl).trans
          (congrArg (fun h => ServiceVerdict.operation (.networkRelease node h)) (handleOf_append b2 b3)))))
    · exact (judgeService_of_op (f := [4, node, b2, b3, b4, b5, b6, b7]) (of_decide_eq_false rfl) hn).trans ((if_neg (of_decide_eq_false rfl)).trans
        ((if_neg (of_decide_eq_false rfl)).trans ((if_neg (of_decide_eq_false rfl)).trans
          (congrArg (fun h => ServiceVerdict.operation (.networkQuery node h)) (handleOf_append b2 b3)))))
  · exact fun node tag h st => by cases st <;> rfl
  · intro node h x time state reason ht
    have hreason : reason ≤ 2 := by
      show (match x.reason with | none => 0 | some .tierDrop => 1 | some .notAdmitted => 2 : Nat) ≤ 2
      split <;> decide
    have hword : stateWord x = state * 4194304 + reason * 1048576 + time := by
      have h1 : holdStateNumber x.state = state := by dsimp only [state]; cases x.state <;> rfl
      have h2 : reasonNumber x.reason = reason := by
        dsimp only [reason]
        rcases x.reason with - | - | - <;> rfl
      have h3 : (match x.state with
          | .scheduled => x.countdown.getD 0
          | .active | .suspended => x.remaining.getD 0) = time := by dsimp only [time] <;> cases x.state <;> rfl
      rw [← h1, ← h2, ← h3]
      rfl
    obtain ⟨h1, h2, h3⟩ := stateWord_parts (state := state) hreason ht
    refine ⟨_, h1, h2, h3, ?_, ?_⟩ <;> rw [← hword]
    · exact recordAnswer_eq 2 node h _
    · exact recordAnswer_eq 4 node h _

end Sys2Proof.Machine

/-! ### What software reads (R74, R78, R104, R136, R162, R168) -/

namespace Sys2Proof.Machine

variable {c : Instr} {s s1 t u : State} {n : Nat} {st : Status} {b : Bool}

theorem getElem?_beBytes : ∀ (n x k : Nat), k < n → (beBytes n x)[k]? = some (BitVec.ofNat 8 (x / 256 ^ (n - 1 - k)))
  | 0, _, _, h => absurd h (Nat.not_lt_zero _)
  | _ + 1, _, 0, _ => rfl
  | n + 1, x, k + 1, h => by
    show (beBytes n x)[k]? = _
    rw [getElem?_beBytes n x k (Nat.lt_of_succ_lt_succ h), Nat.add_sub_cancel, Nat.sub_sub, Nat.add_comm 1 k]

theorem optionalBytes_eq (x : Option Nat) : optionalBytes 4 x = (match x with
    | some d => 1 :: beBytes 4 d
    | none => [0, 0, 0, 0, 0]) := by
  cases x <;> rfl

theorem orInvalid_eq (x : Option Nat) : orInvalid x = (match x with
    | some m => 1 :: beBytes 4 m
    | none => [2, 0, 0, 0, 0]) := by
  cases x <;> rfl

theorem lastMBytes_eq (x : LastM) : lastMBytes x = (match x with
    | .value m => 1 :: beBytes 4 m
    | .invalid => [2, 0, 0, 0, 0]
    | .absent => [0, 0, 0, 0, 0]) := by
  cases x <;> rfl

theorem byte_domainState (x : DomainState) : byte x.number = [(match x with
    | .off => 0 | .waking => 1 | .on => 2 | .draining => 3 | .faulted => 4 | .latched => 5 : Byte)] := by
  cases x <;> rfl

theorem byte_calStatus (x : CalStatus) : byte x.number = [(match x with
    | .never => 0 | .running => 1 | .done => 2 | .failed => 3 | .aborted => 4 : Byte)] := by
  cases x <;> rfl

theorem byte_mode (x : Mode) : byte (modeNumber x) = [(match x with
    | .run => 0 | .parkPending => 1 | .park => 2 : Byte)] := by
  cases x <;> rfl

theorem byte_pinState (x : PinState) : byte x.number = [(match x with
    | .ready => 0 | .debouncing => 1 | .held => 2 : Byte)] := by
  cases x <;> rfl

theorem byte_outcome (x : WakeOutcome) : byte (outcomeNumber x) = [(match x with
    | .none => 0 | .accepted => 1 | .coalesced => 2 | .window => 3 | .disarmed => 4 | .limit => 5
    | .full => 6 : Byte)] := by
  cases x <;> rfl

theorem optionalByte_some (x : Nat) : optionalBytes 1 (some x) = [1, BitVec.ofNat 8 x] :=
  congrArg (fun y => [1, BitVec.ofNat 8 y]) (Nat.div_one x)

theorem byte_ofBool (b : Bool) : BitVec.ofNat 8 (if b then 1 else 0) = (if b then 1 else 0 : Byte) := by
  cases b <;> rfl

theorem secondsLeft_eq (u : Nat) : secondsLeft u = (u + 4095999) / 4096000 := by
  show (u + 4096000 - 1) / 4096000 = _
  rw [Nat.add_sub_assoc (by decide)]

theorem append_five {α : Type} (l : List α) (a b c d e : α) :
    l ++ [a] ++ [b] ++ [c] ++ [d] ++ [e] = l ++ [a, b, c, d, e] := by
  simp only [List.append_assoc, List.cons_append, List.nil_append]

theorem sourceBytes_eq (x : Source) : sourceBytes x =
    yesNo x.armOnce ++ yesNo x.armAlways ++ byte x.template.val ++ yesNo x.logicAnd ++ windowBytes x.winA
      ++ windowBytes x.winB ++ (yesNo x.winT.enable ++ yesNo x.winT.outside ++ byte x.winT.minTier.rank) := rfl

/-- Settles O60. -/
theorem statusCommandsReadWhatStands : Obligations.StatusCommandsReadWhatStands := by
  refine ⟨fun n x => ⟨length_beBytes n x, getElem?_beBytes n x⟩, rfl, ?_, ?_, ?_, ?_, ?_, ?_⟩
  · intro s s1 n h
    refine exec_ok (by rfl) h ?_
    rw [optionalBytes_eq, optionalBytes_eq, lastMBytes_eq]
    rfl
  · intro domain s s1 n h
    refine ⟨fun hgt => exec_refused (by rfl) h (by rw [indexOf_of_range hgt]), fun i hi => ?_⟩
    refine exec_ok (by rfl) h ?_
    rw [indexOf_of_eq hi]
    dsimp only
    rw [byte_domainState]
    rfl
  · exact fun s s1 n h => exec_ok (by rfl) h (by rfl)
  · intro s s1 n h
    refine exec_ok (by rfl) h ?_
    rw [byte_calStatus, orInvalid_eq]
    cases s1.spm.code <;> rfl
  · intro s s1 n h
    refine exec_ok (by rfl) h ?_
    rw [byte_mode, optionalBytes_eq]
    cases s1.mdc.mode
    · rfl
    · cases s1.mdc.parkTimer with
      | none => rfl
      | some u => rw [if_pos rfl, Option.map_some, secondsLeft_eq]; rfl
    · rfl
  · intro source s s1 n h
    refine ⟨fun hgt => exec_refused (by rfl) h (by rw [indexOf_of_range hgt]), fun i hi => ⟨fun k hk => ?_, fun hk => ?_⟩⟩
    · refine exec_ok (by rfl) h ?_
      rw [indexOf_of_eq hi]
      dsimp only
      rw [show sourcePin i = some k from (dif_pos (hk ▸ k.isLt)).trans (congrArg some (Fin.ext hk.symm)), byte_outcome,
        areaHolds_eq_xor, areaHolds_eq_xor, areaHolds_eq_xor]
      unfold pinStatusBytes
      dsimp only
      rw [byte_pinState, optionalByte_some, optionalByte_some, byte_ofBool]
      rfl
    · refine exec_ok (by rfl) h ?_
      rw [indexOf_of_eq hi]
      dsimp only
      rw [show sourcePin i = none from dif_neg (Nat.not_lt_of_ge hk), show pinStatusBytes s1 none = [0, 0, 0, 0] from rfl, byte_outcome, areaHolds_eq_xor, areaHolds_eq_xor, areaHolds_eq_xor, sourceBytes_eq]
      exact congrArg (fun l => (s1, Reply.ok l)) (append_five _ _ _ _ _ _)

end Sys2Proof.Machine

/-! ### What the part does by itself, and the reset state (R28, R92, R99) -/

namespace Sys2Proof.Machine

variable {c : Instr} {s s1 t u : State} {n : Nat} {st : Status} {b : Bool}

/-! #### Due expiries -/

theorem Domain.dueExpiry_eq (d : Domain) (i : Fin 12) : d.dueExpiry i = (match d.timer, d.state with
    | some 0, .waking => some (Instr.settleExpiry i)
    | some 0, .on => some (.stabilityExpiry i)
    | some 0, .draining => some (.runDownExpiry i)
    | some 0, .faulted => some (.backoffExpiry i)
    | _, _ => none) := by
  unfold Domain.dueExpiry
  rcases d.timer with - | - | k
  · rfl
  · cases d.state <;> rfl
  · rfl

theorem Pin.dueExpiry_eq (p : Pin) (i : Fin 8) : p.dueExpiry i = (match p.timer, p.state with
    | some 0, .debouncing => some (Instr.debounceExpiry i)
    | _, _ => none) := by
  unfold Pin.dueExpiry
  rcases p.timer with - | - | k
  · rfl
  · cases p.state <;> rfl
  · rfl

theorem Mdc.dueExpiry_eq (m : Mdc) : m.dueExpiry = ((if m.ignTimer = some 0 then [Instr.ignDebounceExpiry] else [])
    ++ (if m.parkTimer = some 0 ∧ m.mode = .parkPending then [Instr.parkDelayExpiry] else [])).head? := by
  unfold Mdc.dueExpiry
  split
  · rfl
  · split <;> rfl

/-- The first expiry that is due is the first of all that are due, in their order. -/
theorem State.dueExpiry_eq (s : State) : s.dueExpiry =
    (((List.finRange 12).filterMap fun i => (s.dsc.domains[i]'i.2).dueExpiry i)
      ++ ((List.finRange 8).filterMap fun i => (s.wsu.pins[i]'i.2).dueExpiry i)
      ++ (if s.mdc.ignTimer = some 0 then [Instr.ignDebounceExpiry] else [])
      ++ (if s.mdc.parkTimer = some 0 ∧ s.mdc.mode = .parkPending then [Instr.parkDelayExpiry] else [])).head? := by
  unfold State.dueExpiry
  rw [List.append_assoc, List.append_assoc, List.head?_append, List.head?_append, List.head?_filterMap,
    List.head?_filterMap, Mdc.dueExpiry_eq]
  rfl

/-! #### A step on an empty queue -/

theorem step_own (hp : s.pending = []) (h : s.nextOwn = some c) : step s = exec c s := by
  unfold step
  rw [hp]
  show ownStep s = _
  unfold ownStep
  rw [h]

theorem step_idle (hp : s.pending = []) (h : s.nextOwn = none) : step s = .next s.crystalPeriod := by
  unfold step
  rw [hp]
  show ownStep s = _
  unfold ownStep
  rw [h]

theorem State.nextOwn_held (h : s.held = true) : s.nextOwn = none := if_pos h

theorem State.nextOwn_live (h : s.held = false) : s.nextOwn =
    (match s.handed with
      | c :: _ => some c
      | [] => match s.ctp.outstanding with
        | e :: _ => some e.2
        | [] => s.dueExpiry) := if_neg (Bool.eq_false_iff.mp h)

/-- Settles O2. -/
theorem idleStepGoesOnByItself : Obligations.IdleStepGoesOnByItself := by
  intro s hp
  refine ⟨fun h => ?_, fun h c rest e => ?_, fun h e n c rest eo => ?_, fun h e eo c ed => ?_, fun h e eo ed => ?_, ?_,
    fun n => ⟨Nat.mul_comm _ _, Nat.mul_comm _ _⟩, fun c => ⟨rfl, rfl⟩⟩
  · rw [step_idle hp (State.nextOwn_held h)]
    exact congrArg Host.Outcome.next (if_pos h)
  · exact step_own hp ((State.nextOwn_live h).trans (by rw [e]))
  · exact step_own hp ((State.nextOwn_live h).trans (by rw [e, eo]))
  · exact step_own hp ((State.nextOwn_live h).trans (by rw [e, eo, ed]))
  · refine ⟨_, (step_idle hp ((State.nextOwn_live h).trans (by rw [e, eo, ed]))).trans
      (congrArg Host.Outcome.next (if_neg (Bool.eq_false_iff.mp h))), ?_⟩
    have hdomains : ∀ i : Fin 12, s.ageTimers.dsc.domains[i]'i.2 =
        { s.dsc.domains[i]'i.2 with timer := (s.dsc.domains[i]'i.2).timer.map (· - 125) } := fun i => Vector.getElem_ofFn i.isLt
    have hpins : ∀ i : Fin 8, s.ageTimers.wsu.pins[i]'i.2 =
        { s.wsu.pins[i]'i.2 with timer := (s.wsu.pins[i]'i.2).timer.map (· - 125) } := fun i => Vector.getElem_ofFn i.isLt
    unfold State.advancePhase
    by_cases hphase : s.tmb.phase + 1 < 32768
    · rw [if_pos (show s.ageTimers.tmb.phase + 1 < Config.periodsPerSecond from hphase)]
      exact ⟨rfl, fun _ => ⟨rfl, e, rfl⟩, fun h => absurd hphase h.not_gt, hdomains, hpins⟩
    · rw [if_neg (show ¬ s.ageTimers.tmb.phase + 1 < Config.periodsPerSecond from hphase)]
      exact ⟨rfl, fun h => absurd h hphase, fun _ => ⟨rfl, rfl, congrArg (· ++ [_]) e⟩, hdomains, hpins⟩
  · intro domains pins
    have hd : ((List.finRange 12).filterMap fun i => (s.dsc.domains[i]'i.2).dueExpiry i) = domains :=
      congrArg (List.filterMap · (List.finRange 12)) (funext fun i => Domain.dueExpiry_eq _ i)
    have hq : ((List.finRange 8).filterMap fun i => (s.wsu.pins[i]'i.2).dueExpiry i) = pins :=
      congrArg (List.filterMap · (List.finRange 8)) (funext fun i => Pin.dueExpiry_eq _ i)
    rw [State.dueExpiry_eq, hd, hq]

end Sys2Proof.Machine

/-! ### Power-on reset and the hold in reset (R28, R154) -/

namespace Sys2Proof.Machine

variable {c : Instr} {s s1 t u : State} {n : Nat} {st : Status} {b : Bool}

theorem tableSound_reset : tableSound State.reset where
  holds _ _ h := (Htm.reset_hold.mp h).2 ▸ holdSound_bootHold
  host := Htm.ownerCount_le_one.mpr fun _ _ _ _ hi hj _ _ => (Htm.reset_hold.mp hi).1.trans (Htm.reset_hold.mp hj).1.symm
  limits := by decide
  templates := templatesSound_of_reset rfl
  waiting c h := by
    rcases h with h | h | ⟨n, h⟩
    · cases h
    · obtain rfl : c = .holdDemandReport 1 [1] := List.mem_singleton.mp h
      trivial
    · cases h

theorem portSound_reset : portSound State.reset :=
  ⟨by decide, (fun h => by cases h), fun _ => rfl, (fun _ h => by cases h), (fun _ h => by cases h)⟩

/-- Settles O9. -/
theorem resetSatisfiesTheLaws : Obligations.ResetSatisfiesTheLaws :=
  ⟨tableSound_reset, tierSound_of_reset (ign := false) rfl, budgetSound_reset _ false rfl, domainsSound_reset false rfl,
    clockSound_reset, supplySound_reset, modeSound_of_reset rfl, pinsSound_of_reset rfl,
    serviceSound_iff.mpr ⟨engineReady_reset, fun _ => rfl⟩, portSound_reset, attnSound_reset⟩

theorem Htm.reset_gen : ∀ i : Fin 48, (Htm.reset.slots[i]'i.2).gen = 0 := by decide

/-- The classes of R30 do not hang on the ignition. -/
theorem tauReset_classes (ign : Bool) :
    (∀ c : Fin 8, ((Tau.reset ign).classes[c]'c.2).floor =
        (if c.val ≤ 1 then .green else if c.val ≤ 3 then .amber else if c.val ≤ 5 then .red else .exhausted))
    ∧ ∀ c : Fin 8, ((Tau.reset ign).classes[c]'c.2).reserve.toNat =
        (if c.val ≤ 5 then 96 - 16 * c.val else if c.val = 6 then 8 else 0) := by
  cases ign <;> decide

theorem State.inReset_slots (inputs : Inputs) (i : Fin 48) :
    (State.inReset inputs).htm.slots[i]'i.2 = { gen := 0, hold := none } := Vector.getElem_replicate i.isLt

/-- Settles O8. -/
theorem powerOnResetAndTheHoldInReset : Obligations.PowerOnResetAndTheHoldInReset := by
  refine ⟨fun s => ⟨_, rfl, Htm.reset_gen, fun i hi => ?_, rfl, rfl, rfl, rfl, rfl, rfl, rfl, rfl, rfl, rfl⟩,
    fun s => ⟨_, rfl, ?_⟩, fun s => ⟨_, rfl, ?_⟩⟩
  · exact Option.eq_none_iff_forall_ne_some.mpr fun h e => hi (Htm.reset_hold.mp e).1
  · obtain ⟨hfloor, hreserve⟩ := tauReset_classes s.inputs.ign
    have hdomains : ∀ i : Fin 12, (Dsc.reset s.inputs.ign).domains[i]'i.2 = Domain.reset := fun i => Vector.getElem_replicate i.isLt
    have hpins : ∀ i : Fin 8, (Wsu.reset s.inputs.wake).pins[i]'i.2 = Pin.reset (s.inputs.wake.getLsbD i) :=
      fun i => Vector.getElem_ofFn i.isLt
    have hsources : ∀ n : Fin 16, (Wsu.reset s.inputs.wake).sources[n]'n.2 = Source.reset n := fun n => Vector.getElem_ofFn n.isLt
    have htemplates : ∀ n : Fin 16, Tpe.reset.templates[n]'n.2 = templateReset := fun n => Vector.getElem_replicate n.isLt
    have hfilters : ∀ f : Fin 8, Bnl.reset.filters[f]'f.2 = Filter.reset := fun f => Vector.getElem_replicate f.isLt
    have hlevels : ∀ f : Fin 16, Evu.reset.levels[f]'f.2 = .attn := fun f => Vector.getElem_replicate f.isLt
    exact ⟨hfloor, hreserve, rfl, rfl, rfl, rfl, rfl, hdomains, rfl, rfl, rfl, rfl, hpins,
      fun n => hsources n ▸ ⟨rfl, rfl, rfl, rfl, rfl, rfl, rfl, rfl⟩, htemplates, rfl, rfl, rfl, rfl, rfl, rfl, rfl, rfl, rfl,
      rfl, rfl, rfl, rfl, rfl, rfl, rfl, rfl, rfl, hfilters, rfl, rfl, rfl, rfl, rfl, hlevels, rfl, rfl⟩
  · exact ⟨rfl, rfl, rfl, rfl, rfl, State.inReset_slots s.inputs,
      ⟨_, rfl, rfl, rfl, rfl, rfl, rfl, rfl, rfl, rfl, rfl, rfl, rfl, rfl⟩,
      fun c h1 h2 hlevel hcsn => exec_of_held rfl h1 h2 hlevel hcsn, fun c hcsn => exec_of_held_csn rfl hcsn,
      fun i high => ⟨_, (levelRow_pinLevelChange i high).of_held rfl, fun j => wakeLevelsAfter_getLsbD _ i j high⟩,
      fun high => (levelRow_ignChange high).of_held rfl,
      fun i active => ⟨_, (levelRow_faultReport i active).of_held rfl, fun j => tripsAfter_getLsbD _ i j active⟩⟩

end Sys2Proof.Machine

/-! ### The Control Port's frames and responses (10) -/

namespace Sys2Proof.Machine

variable {c : Instr} {s s1 t u : State} {n : Nat} {st : Status}

theorem toNat_byteSum (bs : List Byte) : (byteSum bs).toNat = (bs.map (·.toNat)).sum % 256 := by
  induction bs with
  | nil => rfl
  | cons b bs ih =>
    rw [List.map_cons, List.sum_cons, ← Nat.add_mod_mod, ← ih]
    exact BitVec.toNat_add b (byteSum bs)

/-- A checksum passes when the bytes sum up to 0 modulo 256 (R183). -/
theorem byteSum_eq_zero (bs : List Byte) : byteSum bs = 0 ↔ (bs.map (·.toNat)).sum % 256 = 0 :=
  toNat_byteSum bs ▸ BitVec.toNat_inj.symm

/-- Settles O6. -/
theorem thePortPreparesItsResponses : Obligations.ThePortPreparesItsResponses := by
  refine ⟨fun s hheld => ⟨fun hlive hcsn => ?_, fun h => ?_⟩, fun s position => ⟨fun h => ?_, fun sofar st payload h hs => ?_⟩,
    fun s n st payload hheld => ⟨fun ha hb => ?_, fun h => ?_⟩, fun s => ⟨fun h => ?_, fun h => ?_⟩⟩
  · exact exec_edge (Eq.refl (execFrameBegin s)) hheld (if_pos ⟨hlive, hcsn⟩)
  · exact exec_edge (Eq.refl (execFrameBegin s)) hheld (if_neg fun ⟨hlive, hcsn⟩ =>
      h.elim (fun e => Bool.noConfusion (e.symm.trans hlive)) fun e => Bool.noConfusion (e.symm.trans hcsn))
  · exact if_neg (h ▸ Bool.false_ne_true)
  · refine ⟨-byteSum (BitVec.ofNat 8 (statusNumber st) :: BitVec.ofNat 8 payload.length :: payload), ?_, ?_⟩
    · exact (byteSum_eq_zero _).mp (byteSum_withChecksum _)
    · exact (if_pos (h ▸ rfl)).trans (hs ▸ rfl)
  · exact exec_arrive (Eq.refl (execBlockResult n st payload s)) hheld (if_pos ⟨ha, hb⟩)
  · exact exec_arrive (Eq.refl (execBlockResult n st payload s)) hheld
      (if_neg fun ⟨ha, hb⟩ => h.elim (fun e => e ha) fun e => e hb)
  · exact exec_report (Eq.refl (execPortReset s)) h rfl
  · exact exec_report (Eq.refl (execPortLive s)) h rfl

/-! #### The end of a frame (R184) -/

theorem Ctp.withFrame_of_begun {p : Ctp} {sofar : List Byte} (h : p.frame = some sofar) : p.withFrame = p :=
  if_pos (h ▸ rfl)

theorem Ctp.withFrame_of_none {p : Ctp} (h : p.frame = none) : p.withFrame = p.beginFrame := if_neg (h ▸ Bool.false_ne_true)

/-- How a judged frame ends: with its status prepared, or with its command handed out. -/
def FrameVerdict.endsFrame (v : FrameVerdict) (s : State) : State :=
  match v with
  | .refused st => s.frameReady st
  | .command c => if c = .nop then s.frameReady .ok else s.handOut c

/-- How a frame ends hangs on the state through the frame as begun and the rest of the port. -/
theorem FrameVerdict.endsFrame_congr (v : FrameVerdict) {s s' : State} (h : s.ctp.withFrame = s'.ctp.withFrame)
    (hctp : s'.ctp.outstanding = s.ctp.outstanding ∧ s'.ctp.serial = s.ctp.serial)
    (hs : ∀ p, s'.withPort p true = s.withPort p true) : v.endsFrame s = v.endsFrame s' := by
  have hready : ∀ st, s.frameReady st = s'.frameReady st := fun st => (hs _).symm.trans
    (congrArg (fun p => s'.withPort (p.endFrameReady st) true) h)
  match v with
  | .refused st => exact hready st
  | .command c =>
    show (if c = .nop then s.frameReady .ok else s.handOut c) = if c = .nop then s'.frameReady .ok else s'.handOut c
    rw [hready]
    refine congrArg (ite (c = .nop) _) ((hs _).symm.trans ?_)
    rw [h]
    show _ = s'.withPort _ true
    rw [hctp.1, hctp.2]

theorem exec_frameRefused (hheld : s.held = false) (hopen : s.frameOpen = true) (bytes : List Byte) :
    exec (.frameRefused bytes) s = .next ((judgeFrame (s.ctp.frame.getD [] ++ bytes)).endsFrame (s.take (.frameRefused bytes))) :=
  exec_edge (Eq.refl (execFrameRefused bytes s)) hheld ((if_pos hopen).trans rfl)

theorem exec_nop (hheld : s.held = false) (hopen : s.frameOpen = true) :
    exec .nop s = .next (FrameVerdict.endsFrame (.refused .ok) (s.take .nop)) :=
  exec_edge (Eq.refl (execNop s)) hheld (if_pos hopen)

/-- Settles O5: a frame is judged by a chain of conditions (`judgeFrame_of_take`), and ends by its verdict. -/
theorem framesAreJudgedAndHandedOut : Obligations.FramesAreJudgedAndHandedOut := by
  refine ⟨fun bytes => ⟨fun h => ?_, fun code len rest h => ?_⟩, fun s sofar bytes hheld hlive hframe => ?_,
    fun s bytes hheld => ⟨fun hlive hframe hcsn => ?_, fun h => ?_⟩⟩
  · match bytes, h with
    | [], _ | [_], _ => rfl
  · rw [judgeFrame_of_take h]
    refine ⟨fun hbad => if_pos hbad, fun hlen hrest => ?_⟩
    rw [if_neg (not_or.mpr ⟨hlen.not_gt, hrest.not_gt⟩)]
    refine ⟨fun hsum => if_pos fun e => hsum ((byteSum_eq_zero _).mp e), fun hsum => ?_⟩
    rw [if_neg (not_not.mpr ((byteSum_eq_zero _).mpr hsum))]
    refine ⟨fun hset => hset ▸ rfl, fun L read hset => ?_⟩
    rw [hset]
    exact ⟨fun hL => if_pos hL, fun hL => (if_neg (not_not.mpr hL)).trans (hL ▸ rfl)⟩
  · have hopen := State.frameOpen_eq_true.mpr ⟨hlive, .inl (hframe ▸ rfl)⟩
    have hwith := Ctp.withFrame_of_begun hframe
    have hends := exec_frameRefused hheld hopen bytes
    rw [hframe, Option.getD_some] at hends
    have hready : ∀ c st, (s.take c).frameReady st = (s.take c).withPort (s.ctp.endFrameReady st) true := fun c st =>
      congrArg (fun p : Ctp => (s.take c).withPort (p.endFrameReady st) true) hwith
    refine ⟨fun st h => ?_, fun h => ?_, ?_, fun c hc h => ?_⟩
    · rw [hends, h]
      exact congrArg _ (hready _ st)
    · rw [hends, h]
      exact congrArg _ (hready _ .ok)
    · exact (exec_nop hheld hopen).trans (congrArg _ (hready _ .ok))
    · rw [hends, h]
      refine congrArg Host.Outcome.next ((if_neg hc).trans ?_)
      refine (congrArg (fun p : Ctp => (s.take (.frameRefused bytes)).withPort { p.endFramePending with
        outstanding := s.ctp.outstanding ++ (c :: otherParts c).map fun x => (s.ctp.serial, x) } true) hwith).trans ?_
      rw [List.append_assoc]
      unfold otherParts
      split <;> rfl
  · have hopen := State.frameOpen_eq_true.mpr ⟨hlive, .inr hcsn⟩
    have hbegun : (s.withPort s.ctp.beginFrame false).frameOpen = true := State.frameOpen_eq_true.mpr ⟨hlive, .inl rfl⟩
    have hends : ∀ v c, FrameVerdict.endsFrame v (s.take c) = v.endsFrame ((s.withPort s.ctp.beginFrame false).take c) :=
      fun v _ => v.endsFrame_congr (Ctp.withFrame_of_none hframe) ⟨rfl, rfl⟩ fun _ => rfl
    refine ⟨(exec_frameRefused hheld hopen bytes).trans (.trans ?_ (exec_frameRefused (s := s.withPort s.ctp.beginFrame false) hheld hbegun bytes).symm),
      (exec_nop hheld hopen).trans (.trans ?_ (exec_nop (s := s.withPort s.ctp.beginFrame false) hheld hbegun).symm)⟩
    · rw [hends, hframe]
      rfl
    · exact congrArg _ (hends _ _)
  · have hopen : s.frameOpen ≠ true := fun e => by
      obtain ⟨hl, hf⟩ := State.frameOpen_eq_true.mp e
      rcases h with h | ⟨h1, h2⟩
      · exact Bool.noConfusion (h.symm.trans hl)
      · rw [h1, h2] at hf
        exact hf.elim Bool.noConfusion Bool.noConfusion
    exact ⟨exec_edge (Eq.refl (execFrameRefused bytes s)) hheld (if_neg hopen),
      exec_edge (Eq.refl (execNop s)) hheld (if_neg hopen)⟩

/-! #### Taking a command at its block (R184, R191) -/

theorem portTake_of_next (h : s.ctp.nextFor c = some (n, c)) : portTake c s = some (n, s.takeOutstanding n c) := by
  unfold portTake
  rw [h]
  exact if_pos rfl

theorem portTake_of_open (h : s.ctp.nextFor c = none) (hopen : s.frameOpen = true) :
    portTake c s = some (s.ctp.serial, s.framePassed (otherParts c)) := by
  unfold portTake
  rw [h]
  exact if_pos hopen

theorem portTake_of_other {e : Nat × Instr} (h : s.ctp.nextFor c = some e) (he : e.2 ≠ c) : portTake c s = none := by
  unfold portTake
  rw [h]
  exact if_neg he

theorem portTake_of_closed (h : s.ctp.nextFor c = none) (hopen : s.frameOpen ≠ true) : portTake c s = none := by
  unfold portTake
  rw [h]
  exact if_neg hopen

theorem partTake_of_next (h : s.ctp.nextFor c = some (n, c)) : partTake c s = some (s.takeOutstanding n c) := by
  unfold partTake
  rw [h]
  exact if_pos rfl

theorem partTake_of_none (h : s.ctp.nextFor c = none) : partTake c s = some s := by
  unfold partTake
  rw [h]

theorem partTake_of_other {e : Nat × Instr} (h : s.ctp.nextFor c = some e) (he : e.2 ≠ c) : partTake c s = none := by
  unfold partTake
  rw [h]
  exact if_neg he

theorem portCommand_of_left {g : State → State × Reply} (hheld : s.held = false) (h : portTake c s = none) :
    portCommand c s g = .next (portLeft c s) := by
  unfold portCommand
  rw [if_neg (Bool.eq_false_iff.mp hheld), h]

theorem portPart_of_left {f : State → State} (hheld : s.held = false) (h : partTake c s = none) :
    portPart c s f = .next s := by
  unfold portPart
  rw [if_neg (Bool.eq_false_iff.mp hheld), h]

/-- The abort is taken as the part of a CLEAR while no mode change has one in flight (R192). -/
theorem exec_part (hheld : s.held = false)
    (h : c = .clearFlags ∨ c = .clearService ∨ (c = .calibrationAbort ∧ .calibrationAbort ∉ s.handed)) :
    ∃ f, exec c s = portPart c s f := by
  rcases h with rfl | rfl | ⟨rfl, hnot⟩
  · exact ⟨_, rfl⟩
  · exact ⟨_, rfl⟩
  · rcases execCalibrationAbort_cases s with ⟨h, -⟩ | ⟨-, s0, rfl, ⟨hin, -⟩ | ⟨-, e⟩⟩
    · exact Bool.noConfusion (hheld.symm.trans h)
    · exact absurd hin hnot
    · have hmeet : s.abortsMeet ≠ true := fun e => hnot (List.contains_iff_mem.mp (Bool.and_eq_true_iff.mp e).1)
      rw [if_neg hmeet] at e
      exact ⟨_, e⟩

theorem Ctp.withFrame_serial (p : Ctp) : p.withFrame.serial = p.serial := by
  unfold Ctp.withFrame
  split <;> rfl

/-- Settles O7. -/
theorem takingACommandMovesOnlyThePort : Obligations.TakingACommandMovesOnlyThePort := by
  intro c s hheld next waits opened rises handedOut parts taken
  have hleft : c.portBlock.isSome = true → c.movesCsn = true → portTake c s = none →
      exec c s = .next (portLeft c s) := fun hb hcsn h =>
    let ⟨_, row⟩ := hasPortRow hb hcsn
    (row.exec_eq s).trans (portCommand_of_left hheld h)
  have hpassed : ∀ cs, s.framePassed cs = handedOut cs := fun cs =>
    congrArg (fun k => s.withPort { s.ctp.withFrame with
      frame := none, buffer := .pending, awaited := some k, serial := k + 1
      outstanding := s.ctp.outstanding ++ cs.map fun x => (s.ctp.serial, x) } true) (Ctp.withFrame_serial s.ctp)
  refine ⟨fun n s1 h => portTake_frame h.2, fun n h => ⟨hheld, portTake_of_next h⟩,
    fun h hopen => ⟨hheld, hpassed parts ▸ portTake_of_open h (State.frameOpen_eq_true.mpr hopen)⟩,
    fun hb hcsn => ⟨fun e h he => ?_, fun h hopen => ?_⟩, fun hpart => ⟨fun n h => ⟨hheld, partTake_of_next h⟩,
    fun h => ⟨hheld, partTake_of_none h⟩, fun e h he => ?_⟩⟩
  · rw [hleft hb hcsn (portTake_of_other h he)]
    rcases portLeft_cases c s with ⟨hw, e⟩ | ⟨hw, hf, e⟩ | ⟨hw, hf, e⟩ <;> rw [e]
    · exact ⟨fun _ => rfl, fun hn => absurd hw hn, fun hn => absurd hw hn⟩
    · exact ⟨fun ⟨n, hn⟩ => absurd hn (hw n), fun _ _ => congrArg _ (hpassed _), fun _ hn => absurd (State.frameOpen_eq_true.mp hf) hn⟩
    · have hclosed : ¬ opened := fun h => Bool.noConfusion (hf.symm.trans (State.frameOpen_eq_true.mpr h))
      exact ⟨fun ⟨n, hn⟩ => absurd hn (hw n), fun _ h => absurd h hclosed, fun _ _ => rfl⟩
  · have hclosed : s.frameOpen ≠ true := fun h => hopen (State.frameOpen_eq_true.mp h)
    rw [hleft hb hcsn (portTake_of_closed h hclosed)]
    rcases portLeft_cases c s with ⟨⟨n, hw⟩, -⟩ | ⟨-, hf, -⟩ | ⟨-, -, e⟩
    · exact absurd (decide_eq_true rfl) (List.find?_eq_none.mp h (n, c) hw)
    · exact absurd hf hclosed
    · rw [e]
      rfl
  · obtain ⟨f, hf⟩ := exec_part hheld hpart
    exact hf.trans (portPart_of_left hheld (partTake_of_other h he))

end Sys2Proof.Machine

/-! ### Wake sources and the events they raise (06) -/

namespace Sys2Proof.Machine

variable {c : Instr} {s s1 t u : State} {n : Nat} {st : Status} {p p' : Pin} {i : Fin 8} {high event : Bool}

/-! #### The pin machines (R121, R122) -/

theorem Pin.levelChange_debounce (h : p.state = .ready) (hd : 0 < p.debounce) :
    p.levelChange true = ({ p with state := .debouncing, timer := startTimer (ms (10 * p.debounce)) }, false) := by
  unfold Pin.levelChange
  rw [h]
  exact if_neg (Nat.ne_of_gt hd)

theorem Pin.levelChange_event (h : p.state = .ready) (hd : p.debounce = 0) :
    p.levelChange true = ({ p with state := .held, timer := none }, true) := by
  unfold Pin.levelChange
  rw [h]
  exact if_pos hd

theorem Pin.levelChange_stop (h : p.state = .debouncing) :
    p.levelChange false = ({ p with state := .ready, timer := none }, false) := by
  unfold Pin.levelChange
  rw [h]

theorem Pin.levelChange_release (h : p.state = .held) : p.levelChange false = ({ p with state := .ready }, false) := by
  unfold Pin.levelChange
  rw [h]

/-- A changed level moves the pin's machine, which may raise its event. -/
theorem exec_pinLevelChange (hheld : s.held = false) (hdiff : high ≠ s.inputs.wake.getLsbD i.val) {active : Bool}
    (hact : (s.wsu.pins[i]'i.2).isActive high = active) (hp : (s.wsu.pins[i]'i.2).levelChange active = (p', event)) :
    exec (.pinLevelChange i high) s = .next
      (let s1 := State.withPin { s.take (.pinLevelChange i high) with
        inputs := { s.inputs with wake := wakeLevelsAfter s.inputs.wake i high } } i p'
      if event then s1.hand (.wakeEvent (pinSource i)) else s1) := by
  subst hact
  refine exec_edge (Eq.refl (execPinLevelChange i high s)) hheld ((if_neg hdiff).trans ?_)
  exact congrArg (fun r : Pin × Bool => if r.2
    then (State.withPin { s.take (.pinLevelChange i high) with
      inputs := { s.inputs with wake := wakeLevelsAfter s.inputs.wake i high } } i r.1).hand (.wakeEvent (pinSource i))
    else State.withPin { s.take (.pinLevelChange i high) with
      inputs := { s.inputs with wake := wakeLevelsAfter s.inputs.wake i high } } i r.1) hp

/-- Settles O45. -/
theorem pinMachinesDebounceTheirLevel : Obligations.PinMachinesDebounceTheirLevel := by
  intro i high s hheld p source s1 put
  refine ⟨fun h => exec_edge (Eq.refl (execPinLevelChange i high s)) hheld (if_pos h),
    fun hdiff hact hst => ⟨fun hd => ?_, fun hd => ?_⟩, fun hdiff hact => ⟨fun hst => ?_, fun hst => ?_⟩,
    fun hst => ?_, fun hst => ?_, fun j => wakeLevelsAfter_getLsbD _ _ _ _⟩
  · exact exec_pinLevelChange hheld hdiff (beq_iff_eq.mpr hact) (Pin.levelChange_debounce hst hd)
  · exact exec_pinLevelChange hheld hdiff (beq_iff_eq.mpr hact) (Pin.levelChange_event hst hd)
  · exact exec_pinLevelChange hheld hdiff (beq_eq_false_iff_ne.mpr hact) (Pin.levelChange_stop hst)
  · exact exec_pinLevelChange hheld hdiff (beq_eq_false_iff_ne.mpr hact) (Pin.levelChange_release hst)
  · exact exec_arrive (Eq.refl (execDebounceExpiry i s)) hheld (if_pos hst)
  · exact exec_arrive (Eq.refl (execDebounceExpiry i s)) hheld (if_neg hst)

/-! #### Judging an event (R132 to R135) -/

theorem exec_wsuReturn (hheld : s.held = false) (i : Fin 16) (o : WakeOutcome) :
    exec (.wsuReturn i o) s = .next ((s.take (.wsuReturn i o)).recordOutcome i o) :=
  exec_arrive (Eq.refl (execWsuReturn i o s)) hheld rfl

/-- Settles O47. -/
theorem wakeEventsAreJudgedAndAnswered : Obligations.WakeEventsAreJudgedAndAnswered := by
  refine ⟨fun i s hheld => ⟨fun hq => ?_, fun hq h1 h2 => ?_, fun hq h => ?_⟩, fun i template o s hheld =>
    ⟨exec_handOver hheld, exec_arrive (Eq.refl (execTpeReturn i o s)) hheld rfl, fun h => ?_, fun h => ?_⟩⟩
  · exact exec_arrive (Eq.refl (execWakeEvent i s)) hheld (if_pos hq)
  · exact exec_arrive (Eq.refl (execWakeEvent i s)) hheld ((if_neg (ne_false_of_eq_true hq)).trans (if_pos ⟨h1, h2⟩))
  · refine exec_arrive (Eq.refl (execWakeEvent i s)) hheld ((if_neg (ne_false_of_eq_true hq)).trans (if_neg ?_))
    exact fun ⟨h1, h2⟩ => h.elim (ne_true_of_eq_false h1) (ne_true_of_eq_false h2)
  · rcases h with rfl | rfl <;> exact exec_wsuReturn hheld _ _
  · rcases h with rfl | rfl <;> exact exec_wsuReturn hheld _ _

end Sys2Proof.Machine

/-! ### The body network listener: reception and the answer buffer (09) -/

namespace Sys2Proof.Machine

variable {c : Instr} {s s1 t u : State} {n : Nat} {st : Status} {b : Bnl} {f : List Byte} {rest : List (List Byte)}

/-! #### The service engine (R174, R175) -/

theorem State.engineTake_busy (h : s.bnl.buffer ≠ .empty) : s.engineTake = s := by
  unfold State.engineTake
  cases hb : s.bnl.buffer with
  | empty => exact absurd hb h
  | reserved | full | sending => rfl

theorem State.engineTake_idle (h : s.bnl.queue = []) : s.engineTake = s := by
  unfold State.engineTake
  rw [h]
  cases s.bnl.buffer <;> rfl

theorem State.engineTake_answer (hb : s.bnl.buffer = .empty) (hq : s.bnl.queue = f :: rest)
    (hj : judgeService f = .answer st) :
    s.engineTake = s.withBnl { s.bnl with
      queue := rest, buffer := .full, answer := some (answerBytes st (arg8 f 0) (arg8 f 1) []) } := by
  unfold State.engineTake
  rw [hb, hq]
  dsimp only
  rw [hj]

theorem State.engineTake_operation (hb : s.bnl.buffer = .empty) (hq : s.bnl.queue = f :: rest)
    (hj : judgeService f = .operation c) :
    s.engineTake = (s.withBnl { s.bnl with queue := rest, buffer := .reserved }).hand c := by
  unfold State.engineTake
  rw [hb, hq]
  dsimp only
  rw [hj]

/-! #### A frame considered for the service queue (R173) -/

section
variable {ident : BitVec 11} {remote : Bool} {bytes : List Byte}

theorem State.considerService_other (h : ¬ (ident = s.bnl.serviceId ∧ remote = false ∧ bytes.length = 8)) :
    s.considerService ident remote bytes = s := if_neg h

variable (h : ident = s.bnl.serviceId ∧ remote = false ∧ bytes.length = 8)
include h

theorem State.considerService_overrun (hq : 2 ≤ s.bnl.queue.length) :
    s.considerService ident remote bytes = s.raise [.svcOverrun] := (if_pos h).trans (if_pos hq)

theorem State.considerService_joins (hq : s.bnl.queue.length ≤ 1) :
    s.considerService ident remote bytes
      = (s.withBnl { s.bnl with queue := s.bnl.queue ++ [bytes] }).engineTake :=
  (if_pos h).trans (if_neg (Nat.not_le_of_lt (Nat.lt_succ_of_le hq)))

theorem State.considerService_busy (hq : s.bnl.queue.length ≤ 1) (hb : s.bnl.buffer ≠ .empty) :
    s.considerService ident remote bytes = s.withBnl { s.bnl with queue := s.bnl.queue ++ [bytes] } :=
  (State.considerService_joins h hq).trans (State.engineTake_busy
    (s := s.withBnl { s.bnl with queue := s.bnl.queue ++ [bytes] }) hb)

/-- A frame that joins an empty queue stands alone in it. -/
theorem State.considerService_alone (hq : s.bnl.queue = []) :
    s.considerService ident remote bytes = (s.withBnl { s.bnl with queue := [bytes] }).engineTake :=
  (State.considerService_joins h (hq ▸ Nat.zero_le 1)).trans
    (congrArg (fun l => (s.withBnl { s.bnl with queue := l ++ [bytes] }).engineTake) hq)

theorem State.considerService_answer (hq : s.bnl.queue = []) (hb : s.bnl.buffer = .empty)
    (hj : judgeService bytes = .answer st) :
    s.considerService ident remote bytes = s.withBnl { s.bnl with
      queue := [], buffer := .full, answer := some (answerBytes st (arg8 bytes 0) (arg8 bytes 1) []) } :=
  (State.considerService_alone h hq).trans
    (State.engineTake_answer (s := s.withBnl { s.bnl with queue := [bytes] }) hb rfl hj)

theorem State.considerService_operation (hq : s.bnl.queue = []) (hb : s.bnl.buffer = .empty)
    (hj : judgeService bytes = .operation c) :
    s.considerService ident remote bytes
      = (s.withBnl { s.bnl with queue := [], buffer := .reserved }).hand c :=
  (State.considerService_alone h hq).trans
    (State.engineTake_operation (s := s.withBnl { s.bnl with queue := [bytes] }) hb rfl hj)

end

/-! #### Reception (R169, R170) -/

/-- The reception of a frame that the listener hears: it is acknowledged, and its wake events are handed over. -/
def State.heard (s : State) (x : CanFrame) : State :=
  ((s.take (.canFrameReceived x)).withBnl { s.bnl with tx := .acknowledge }).handAll
    (s.bnl.wakes x.ident (carriedBytes x))

theorem exec_canFrameReceived {x : CanFrame} (hheld : s.held = false) (hext : x.extended = false)
    (hen : s.bnl.enable = true) (hu : (s.heard x).considerService x.ident x.remote (carriedBytes x) = u) :
    exec (.canFrameReceived x) s = .next u :=
  exec_arrive (Eq.refl (execCanFrameReceived x s)) hheld ((if_neg fun h => h.elim (ne_true_of_eq_false hext)
    (ne_false_of_eq_true hen)).trans hu)

/-- What a frame that is heard leaves behind: the listener `b`, and its wake events and `told` behind what was in
flight. -/
def State.hears (s : State) (x : CanFrame) (b : Bnl) (told : List Instr) : State :=
  { s with bnl := { b with tx := .acknowledge }
           handed := s.handed.erase (.canFrameReceived x) ++ s.bnl.wakes x.ident (carriedBytes x) ++ told }

theorem State.heard_eq (s : State) (x : CanFrame) : s.heard x = s.hears x s.bnl [] :=
  congrArg (fun l => { s with bnl := { s.bnl with tx := .acknowledge }, handed := l }) (List.append_nil _).symm

theorem State.hears_handAll (s : State) (x : CanFrame) (b : Bnl) (told : List Instr) :
    (s.hears x b []).handAll told = s.hears x b told :=
  congrArg (fun l => { s with bnl := { b with tx := .acknowledge }, handed := l ++ told }) (List.append_nil _)

/-- Settles O56. -/
theorem receptionWakesAndQueues : Obligations.ReceptionWakesAndQueues := by
  intro x s hheld c bytes wakes joins heard
  have told : ∀ b l, Host.Outcome.next (s.hears x b l) = heard b l := fun _ _ => rfl
  have taken : ∀ {u}, x.extended = false → s.bnl.enable = true →
      (s.hears x s.bnl []).considerService x.ident x.remote (carriedBytes x) = u → exec c s = .next u :=
    fun hext hen hu => exec_canFrameReceived hheld hext hen (s.heard_eq x ▸ hu)
  refine ⟨fun h => exec_arrive (Eq.refl (execCanFrameReceived x s)) hheld (if_pos h), fun hext hen =>
    ⟨fun hno => ?_, fun hj hq => ?_, fun hj hq hb => ?_, fun hj hq hb => ⟨fun st hs => ?_, fun op hs => ?_⟩⟩,
    exec_arrive (Eq.refl (execCanFrameError s)) hheld rfl⟩
  · exact (taken hext hen (State.considerService_other (s := s.hears x s.bnl []) hno)).trans (told s.bnl [])
  · exact (taken hext hen ((State.considerService_overrun (s := s.hears x s.bnl []) hj hq).trans (s.hears_handAll x s.bnl [.flagSetting 0x0800]))).trans (told s.bnl _)
  · exact (taken hext hen (State.considerService_busy (s := s.hears x s.bnl []) hj hq hb)).trans
      (told { s.bnl with queue := s.bnl.queue ++ [bytes] } [])
  · exact (taken hext hen (State.considerService_answer (s := s.hears x s.bnl []) hj hq hb hs)).trans (told
      { s.bnl with queue := [], buffer := .full, answer := some (answerBytes st (arg8 bytes 0) (arg8 bytes 1) []) } [])
  · exact (taken hext hen ((State.considerService_operation (s := s.hears x s.bnl []) hj hq hb hs).trans
      (s.hears_handAll x { s.bnl with queue := [], buffer := .reserved } [op]))).trans (told _ [op])

/-! #### The answer buffer (R174 to R178) -/

theorem Bnl.cancelled_busy (h : b.buffer = .reserved ∨ b.buffer = .sending) :
    b.cancelled = { b with queue := [], cancel := true } := by
  unfold Bnl.cancelled
  rcases h with h | h <;> rw [h]

theorem Bnl.cancelled_full (h : b.buffer = .full) : b.cancelled = { b.emptied with queue := [] } := by
  unfold Bnl.cancelled
  rw [h]

theorem Bnl.cancelled_empty (h : b.buffer = .empty) : b.cancelled = { b with queue := [] } := by
  unfold Bnl.cancelled
  rw [h]

/-- Cancelling what is in hand leaves the settings. -/
theorem Bnl.cancelled_settings (b : Bnl) :
    b.cancelled.enable = b.enable ∧ b.cancelled.serviceId = b.serviceId ∧ b.cancelled.answerId = b.answerId := by
  unfold Bnl.cancelled
  cases b.buffer <;> exact ⟨rfl, rfl, rfl⟩

theorem Bnl.configured_settings (b : Bnl) (enable : Bool) (service answer : BitVec 11) :
    (b.configured enable service answer).enable = enable ∧ (b.configured enable service answer).serviceId = service
      ∧ (b.configured enable service answer).answerId = answer := by
  unfold Bnl.configured
  dsimp only
  split
  · exact Bnl.cancelled_settings _
  · exact ⟨rfl, rfl, rfl⟩

/-- A flag that is set on a condition. -/
theorem State.raise_ite {p : Prop} [Decidable p] (s : State) (x : Flag) :
    s.raise (if p then [x] else []) = s.handAll (if p then [.flagSetting (flagsOf [x])] else []) := by
  split
  · rfl
  · exact congrArg (fun l => { s with handed := l }) (List.append_nil s.handed).symm

/-- The end of an attempt, before the engine looks at the queue. -/
def State.attempted (s : State) (how : AttemptEnd) : State :=
  ((s.take (.answerAttemptEnd how)).withBnl { s.bnl.emptied with tx := if how = .transmitError then .errorFrame else .silent }).handAll
    (if how ≠ .sent ∧ s.bnl.cancel = false then [.flagSetting 0x1000] else [])

theorem exec_answerAttemptEnd (hheld : s.held = false) {how : AttemptEnd} (hb : s.bnl.buffer = .sending)
    (hu : (s.attempted how).engineTake = u) : exec (.answerAttemptEnd how) s = .next u :=
  exec_arrive (Eq.refl (execAnswerAttemptEnd how s)) hheld ((if_pos hb).trans
    ((congrArg State.engineTake (State.raise_ite _ _)).trans hu))

theorem exec_htmReturn_cancelled (hheld : s.held = false) {r : NetReturn} (hb : s.bnl.buffer = .reserved)
    (hc : s.bnl.cancel = true) (hu : ((s.take (.htmReturn r)).withBnl s.bnl.emptied).engineTake = u) :
    exec (.htmReturn r) s = .next u :=
  exec_arrive (Eq.refl (execHtmReturn r s)) hheld ((if_pos hb).trans ((if_pos hc).trans hu))

theorem exec_clearService (h : TakesPart .clearService s s1) (hb : s1.bnl.cancelled = b) :
    exec .clearService s = .next (s1.withBnl b) := hb ▸ portPart_of_takes h

theorem identOf_inj {v w : BitVec 16} (hv : v.toNat ≤ 0x7FF) (hw : w.toNat ≤ 0x7FF) (h : v ≠ w) :
    v.setWidth 11 ≠ w.setWidth 11 := fun e =>
  h (BitVec.eq_of_toNat_eq ((toNat_setWidth_of_le hv).symm.trans ((congrArg BitVec.toNat e).trans (toNat_setWidth_of_le hw))))

theorem State.hand_of_bnl (s : State) (b : Bnl) (cs : List Instr) (c : Instr) :
    State.hand { s with bnl := b, handed := cs } c = { s with bnl := b, handed := cs ++ [c] } := rfl

/-- Settles O58. -/
theorem answersAreHeldSentAndLost : Obligations.AnswersAreHeldSentAndLost := by
  refine ⟨fun s hheld => ⟨fun r hb => ⟨fun hc => ?_, fun hc hq => ?_, fun hc f rest op hq hj => ?_, fun hc f rest st hq hj => ?_⟩,
    fun r hb => ?_, fun a hb hen ha => ?_, fun how hb => ⟨fun hq => ?_, fun f rest op hq hj => ?_, fun f rest st hq hj => ?_⟩,
    fun s1 h => ⟨fun hb => ?_, fun hb => ?_, fun hb => ?_⟩⟩, fun enable service answer s s1 n h => ⟨fun hbad => ?_, fun he hs ha hne => ?_⟩⟩
  · exact exec_arrive (Eq.refl (execHtmReturn r s)) hheld ((if_pos hb).trans (if_neg (ne_true_of_eq_false hc)))
  · exact exec_htmReturn_cancelled hheld hb hc (State.engineTake_idle hq)
  · exact exec_htmReturn_cancelled hheld hb hc (State.engineTake_operation rfl hq hj)
  · exact exec_htmReturn_cancelled hheld hb hc (State.engineTake_answer rfl hq hj)
  · exact exec_arrive (Eq.refl (execHtmReturn r s)) hheld (if_neg hb)
  · refine exec_arrive (Eq.refl (execAnswerAttemptStart s)) hheld ((if_pos ⟨hb, hen⟩).trans ?_)
    exact congrArg (fun x : Option (List Byte) => (s.take .answerAttemptStart).withBnl { s.bnl with
      buffer := .sending, sendingId := some s.bnl.answerId, tx := .answer s.bnl.answerId (x.getD []) }) ha
  · exact exec_answerAttemptEnd hheld hb (State.engineTake_idle hq)
  · exact exec_answerAttemptEnd hheld hb ((State.engineTake_operation (s := s.attempted how) rfl hq hj).trans (s.hand_of_bnl _ _ _))
  · exact exec_answerAttemptEnd hheld hb (State.engineTake_answer rfl hq hj)
  · exact exec_clearService h (Bnl.cancelled_busy hb)
  · exact exec_clearService h (Bnl.cancelled_full hb)
  · exact exec_clearService h (Bnl.cancelled_empty hb)
  · refine exec_refused (by rfl) h ?_
    rcases hbad with h | h | h | rfl
    · rw [boolOf_of_range h]
    · rw [identOf_of_range h]
      cases boolOf enable <;> rfl
    · rw [identOf_of_range h]
      cases boolOf enable <;> cases identOf service <;> rfl
    · cases boolOf enable <;> cases identOf service
      · rfl
      · rfl
      · rfl
      · exact if_pos rfl
  · have hset := Bnl.configured_settings s1.bnl (enable == 1) (service.setWidth 11) (answer.setWidth 11)
    refine ⟨s1.bnl.configured (enable == 1) (service.setWidth 11) (answer.setWidth 11), exec_ok (by rfl) h ?_,
      fun hkept => ?_, fun hon hoff => ?_⟩
    · rw [boolOf_of_le he, identOf_of_le hs, identOf_of_le ha]
      refine (if_neg (identOf_inj hs ha hne)).trans (congrArg (Prod.mk _) (congrArg Reply.ok ?_))
      rw [hset.1, hset.2.1, hset.2.2, yesNo_of_le he, toNat_setWidth_of_le hs, toNat_setWidth_of_le ha]
      refine congrArg (List.append _) ?_
      cases (s1.bnl.configured (enable == 1) (service.setWidth 11) (answer.setWidth 11)).buffer <;> rfl
    · refine if_neg fun hand => ?_
      obtain ⟨h1, h2⟩ := Bool.and_eq_true_iff.mp hand
      rcases hkept with h | rfl
      · exact Bool.noConfusion (h.symm.trans h1)
      · exact Bool.noConfusion h2
    · subst hoff
      have hcancel : s1.bnl.configured ((0 : Byte) == 1) (service.setWidth 11) (answer.setWidth 11) = Bnl.cancelled
          { s1.bnl with enable := (0 : Byte) == 1, serviceId := service.setWidth 11, answerId := answer.setWidth 11 } :=
        if_pos (Bool.and_eq_true_iff.mpr ⟨hon, rfl⟩)
      exact ⟨fun hb => hcancel.trans (Bnl.cancelled_empty hb), fun hb => hcancel.trans (Bnl.cancelled_full hb),
        fun hb => hcancel.trans (Bnl.cancelled_busy hb)⟩

end Sys2Proof.Machine

/-! ### Events and ATTN (11) -/

namespace Sys2Proof.Machine

variable {c : Instr} {s s1 t u : State} {n : Nat} {st : Status}

theorem Flag.bit_lt (f : Flag) : f.bit < 16 := by
  cases f <;> exact of_decide_eq_true rfl

theorem flagsOf_getLsbD (fs : List Flag) (k : Nat) : (flagsOf fs).getLsbD k = true ↔ ∃ f ∈ fs, f.bit = k := by
  induction fs with
  | nil => exact ⟨fun h => (Bool.false_ne_true (BitVec.getLsbD_zero.symm.trans h)).elim, fun ⟨_, h, _⟩ => nomatch h⟩
  | cons f fs ih =>
    have hf : f.mask.getLsbD k = decide (f.bit = k) := (BitVec.getLsbD_twoPow ..).trans
      ((congrArg (· && decide (f.bit = k)) (decide_eq_true f.bit_lt)).trans (Bool.true_and _))
    rw [List.exists_mem_cons_iff, ← ih, ← decide_eq_true_iff (p := f.bit = k), ← hf, ← Bool.or_eq_true, ← BitVec.getLsbD_or]
    rfl

theorem attnFormed_iff {pending : FlagSet} {levels : Vector Level 16} :
    attnFormed pending levels = true ↔ ∃ k : Fin 16, pending.getLsbD k.val = true ∧ levels[k]'k.2 ≠ .off := by
  simp only [attnFormed, List.any_eq_true, List.mem_finRange, true_and, Bool.and_eq_true, bne_iff_ne]

theorem attnFormed_zero (levels : Vector Level 16) : attnFormed 0 levels = false :=
  Bool.eq_false_iff.mpr fun h => by
    obtain ⟨k, h, -⟩ := attnFormed_iff.mp h
    exact Bool.false_ne_true (BitVec.getLsbD_zero.symm.trans h)

/-- A transition at level WAKE_HOST: a flag of the setting that was not pending (R196). -/
theorem wakesHost_iff {flags pending : FlagSet} {levels : Vector Level 16} :
    wakesHost (flags &&& ~~~pending) levels = true ↔
      ∃ k : Fin 16, flags.getLsbD k.val = true ∧ pending.getLsbD k.val = false ∧ levels[k]'k.2 = .wakeHost := by
  simp only [wakesHost, List.any_eq_true, List.mem_finRange, true_and, Bool.and_eq_true, beq_iff_eq, BitVec.getLsbD_and,
    BitVec.getLsbD_not, Fin.is_lt, decide_true, Bool.true_and, Bool.not_eq_true', and_assoc]

/-- A setting taken: its flags become pending, with at most one request for the host (R193, R196). -/
theorem exec_flagSetting (hheld : s.held = false) (flags : FlagSet) :
    exec (.flagSetting flags) s = .next { s with
      evu := s.evu.withPending (s.evu.pending ||| flags)
      handed := s.handed.erase (.flagSetting flags) ++ (if wakesHost (flags &&& ~~~s.evu.pending) s.evu.levels
        then [.owner47Request s.evu.wakeCode] else [])
      endedByClear := if flags = 0x8000 then s.endedByClear.tail else s.endedByClear } :=
  exec_arrive (Eq.refl (execFlagSetting flags s)) hheld
    ((State.setFlags_eq _ _).trans (by rw [State.unmarkEnded_eq]; rfl))

/-! #### The levels (R194) -/

theorem levelOf_of_range {b : Byte} (h : 2 < b.toNat) : levelOf b = none := by
  obtain ⟨k, hk⟩ := Nat.exists_eq_add_of_lt h
  unfold levelOf
  rw [hk, Nat.add_right_comm 2 k 1]
  exact (Nat.add_comm 3 k).symm ▸ rfl

theorem byte_of_le_two {b : Byte} (h : b.toNat ≤ 2) : b = 0 ∨ b = 1 ∨ b = 2 := by
  rcases Nat.le_succ_iff.mp h with h | h
  · exact (byte_eq_zero_or_one h).elim .inl fun e => .inr (.inl e)
  · exact .inr (.inr (BitVec.eq_of_toNat_eq h))

theorem levelOf_of_le {b : Byte} (h : b.toNat ≤ 2) :
    levelOf b = some (if b = 0 then .off else if b = 1 then .attn else .wakeHost) := by
  rcases byte_of_le_two h with rfl | rfl | rfl <;> rfl

theorem byte_level {b : Byte} (h : b.toNat ≤ 2) :
    byte (Level.number (if b = 0 then .off else if b = 1 then .attn else .wakeHost)) = [b] := by
  rcases byte_of_le_two h with rfl | rfl | rfl <;> rfl

/-- The levels that EVENT_ENABLE sends, where it is accepted. -/
def levelsSent (levels : BitVec 128) : Vector Level 16 :=
  Vector.ofFn fun k => (levelOf (levelByte levels k)).getD .off

theorem levelsOf_of_le {levels : BitVec 128} (h : ∀ k : Fin 16, (levelByte levels k).toNat ≤ 2) :
    levelsOf levels = some (levelsSent levels) :=
  if_pos (List.all_eq_true.mpr fun k _ => levelOf_of_le (h k) ▸ rfl)

theorem levelsOf_of_range {levels : BitVec 128} {k : Fin 16} (h : 2 < (levelByte levels k).toNat) :
    levelsOf levels = none :=
  if_neg fun e => by
    have hk := List.all_eq_true.mp e k (List.mem_finRange k)
    rw [levelOf_of_range h] at hk
    cases hk

theorem levelsSent_getElem {levels : BitVec 128} {k : Fin 16} (h : (levelByte levels k).toNat ≤ 2) :
    (levelsSent levels)[k]'k.2 =
      if levelByte levels k = 0 then .off else if levelByte levels k = 1 then .attn else .wakeHost :=
  (Vector.getElem_ofFn k.2).trans (levelOf_of_le h ▸ rfl)

theorem levelBytes_sent {levels : BitVec 128} (h : ∀ k : Fin 16, (levelByte levels k).toNat ≤ 2) {e : Evu}
    (he : e.levels = levelsSent levels) :
    levelBytes e = (List.finRange 16).map (levelByte levels) ++ [BitVec.ofNat 8 e.wakeCode.val] := by
  refine congrArg (· ++ byte e.wakeCode.val) ?_
  rw [List.map_eq_flatMap, he]
  exact congrArg (fun f : Fin 16 → List Byte => (List.finRange 16).flatMap f)
    (funext fun k => (congrArg (fun l : Level => byte l.number) (levelsSent_getElem (h k))).trans (byte_level (h k)))

/-- The CAL_ENDED of an abort wakes the host when its flag was not pending and stands at level WAKE_HOST. -/
theorem wakesHost_calEnded (e : Evu) : wakesHost (flagsOf [.calEnded] &&& ~~~e.pending) e.levels = true ↔
    e.pending.getLsbD 15 = false ∧ e.levels[(15 : Fin 16)]'(Fin.isLt 15) = .wakeHost := by
  refine wakesHost_iff.trans ⟨fun ⟨k, hk, h⟩ => ?_, fun h => ⟨15, (flagsOf_getLsbD _ _).mpr ⟨_, List.mem_cons_self, rfl⟩, h⟩⟩
  obtain ⟨f, hf, hbit⟩ := (flagsOf_getLsbD _ _).mp hk
  obtain rfl := List.mem_singleton.mp hf
  obtain rfl : k = 15 := Fin.ext hbit.symm
  exact h

/-- Settles O59. -/
theorem flagsDriveAttentionAndWakeTheHost : Obligations.FlagsDriveAttentionAndWakeTheHost := by
  refine ⟨⟨rfl, fun fs k => flagsOf_getLsbD fs k⟩, fun flags s hheld => ?_, fun keep s s1 n h => ?_,
    fun levels code s s1 n h => ⟨fun ⟨k, hk⟩ => ?_, fun hgood => ?_⟩, fun s s1 h => ?_⟩
  · refine ⟨_, exec_flagSetting hheld flags, rfl, attnFormed_iff, fun hwake => ?_, fun hquiet => ?_⟩
    · exact congrArg (s.handed.erase (.flagSetting flags) ++ ·) (if_pos (wakesHost_iff.mpr hwake))
    · refine (congrArg (s.handed.erase (.flagSetting flags) ++ ·) (if_neg fun hw => ?_)).trans (List.append_nil _)
      obtain ⟨k, hf, hp, hl⟩ := wakesHost_iff.mp hw
      exact (hquiet k hf).elim (fun e => Bool.noConfusion (hp.symm.trans e)) fun e => e hl
  · exact ⟨(s1.withEvu (s1.evu.withPending (s1.evu.pending &&& keep))).hand _, exec_ok (by rfl) h rfl, rfl, attnFormed_iff⟩
  · refine exec_refused (by rfl) h ?_
    rw [levelsOf_of_range hk]
  · refine ⟨(s1.withEvu (Evu.withPending { s1.evu with levels := levelsSent levels, wakeCode := clampCode code }
      s1.evu.pending)).hand (.blockResult n .ok
        ((List.finRange 16).map (levelByte levels) ++ [BitVec.ofNat 8 (clampCode code).val])), exec_ok (by rfl) h ?_, rfl,
      fun k => levelsSent_getElem (hgood k), attnFormed_iff.trans ?_⟩
    · rw [levelsOf_of_le hgood]
      exact congrArg (Prod.mk _) (congrArg Reply.ok (levelBytes_sent hgood rfl))
    · refine exists_congr fun k => and_congr_right fun _ => ?_
      rw [levelsSent_getElem (hgood k)]
      split
      · exact ⟨fun e => absurd rfl e, fun e => absurd ‹_› e⟩
      · exact ⟨fun _ => ‹_›, fun _ => by split <;> exact Level.noConfusion⟩
  · have hexec : exec .clearFlags s = .next (s1.takeEnded (s.ctp.partSerial .clearFlags)).clearFlags := portPart_of_takes h
    obtain ⟨p, rfl⟩ := partTake_eq_withPort h.2
    have hcleared : ∀ u : State, u.clearFlags = { u with evu := { u.evu with pending := 0, attnLow := false } } := fun u =>
      congrArg (fun b => { u with evu := { u.evu with pending := 0, attnLow := b } }) (attnFormed_zero _)
    refine ⟨fun hno => hexec.trans (congrArg Host.Outcome.next ((congrArg State.clearFlags (State.takeEnded_of_not_mem (s := s.withPort p s.inputs.csn) hno)).trans
      (hcleared _))), fun hin => hexec.trans (congrArg Host.Outcome.next ((congrArg State.clearFlags
        ((State.takeEnded_eq (s.withPort p s.inputs.csn) (s.ctp.partSerial .clearFlags)).trans (if_pos hin))).trans ((hcleared _).trans ?_)))⟩
    refine congrArg (fun l => { s.withPort p s.inputs.csn with
      evu := { s.evu with pending := 0, attnLow := false }
      handed := s.handed.diff (List.replicate (s.endedByClear.count (s.ctp.partSerial .clearFlags)) calEndedSetting) ++ l
      endedByClear := s.endedByClear.filter (· ≠ s.ctp.partSerial .clearFlags) }) ?_
    exact ite_congr (propext (wakesHost_calEnded s.evu)) (fun _ => rfl) fun _ => rfl

end Sys2Proof.Machine

/-! ### RENEW, RELEASE, QUERY, FIND, PURGE, CLEAR and LIMITS (R20 to R25, R29) -/

namespace Sys2Proof.Machine

variable {c : Instr} {s s1 t u : State} {n : Nat} {st : Status} {node : Option Byte} {w : BitVec 16} {i : Fin 48} {x : Hold}
  {code : Fin 166} {handle : Handle}

/-! #### RENEW (R20, R21) -/

theorem State.takeRenew_of_ok (e : s.authorised node handle = .ok (i, x)) (code : Fin 166) :
    s.takeRenew node handle code =
      if x.interval.isSome ∧ code.val = 0 then (s, .error .arg)
      else match x.state with
        | .active =>
          if s.admits (some i) x.cls x.mask code then
            (s.withHtm (s.htm.putHold i (x.renewed code)), .ok (x.renewed code))
          else (s, .error .denied)
        | .suspended => (s.withHtm (s.htm.putHold i (x.renewed code)), .ok (x.renewed code))
        | .scheduled => (s.withHtm (s.htm.putHold i { x with code := code }), .ok { x with code := code }) := by
  unfold State.takeRenew
  rw [e] <;> rfl

section
variable (e : s.authorised node handle = .ok (i, x))
include e

theorem State.takeRenew_repeats (h : x.interval.isSome = true ∧ code.val = 0) :
    s.takeRenew node handle code = (s, .error .arg) :=
  (State.takeRenew_of_ok e code).trans (if_pos h)

variable (h : ¬ (x.interval.isSome = true ∧ code.val = 0))
include h

/-- An ACTIVE hold that passes admission, and a SUSPENDED one without a test, are renewed. -/
theorem State.takeRenew_renewed
    (hs : (x.state = .active ∧ s.admits (some i) x.cls x.mask code = true) ∨ x.state = .suspended) :
    s.takeRenew node handle code = (s.withHtm (s.htm.putHold i (x.renewed code)), .ok (x.renewed code)) := by
  rw [State.takeRenew_of_ok e, if_neg h]
  rcases hs with ⟨hs, hadm⟩ | hs
  · rw [hs]
    exact if_pos hadm
  · rw [hs]

theorem State.takeRenew_denied (hs : x.state = .active) (hadm : s.admits (some i) x.cls x.mask code = false) :
    s.takeRenew node handle code = (s, .error .denied) := by
  rw [State.takeRenew_of_ok e, if_neg h, hs]
  exact if_neg (ne_true_of_eq_false hadm)

theorem State.takeRenew_scheduled (hs : x.state = .scheduled) :
    s.takeRenew node handle code = (s.withHtm (s.htm.putHold i { x with code := code }), .ok { x with code := code }) := by
  rw [State.takeRenew_of_ok e, if_neg h, hs]

end

/-- The payload of a RENEW: the handle, the number of the hold's state, and its remaining time. -/
theorem renewPayload_eq (handle : Handle) {k : Nat} (hs : holdStateNumber x.state = k) :
    handleBytes handle ++ byte (holdStateNumber x.state) ++ beBytes 4 (x.remaining.getD 0)
      = handleBytes handle ++ [BitVec.ofNat 8 k] ++ beBytes 4 (x.remaining.getD 0) := by
  rw [hs]
  rfl

/-- A RENEW that its block accepts, with the payload of its result. -/
theorem exec_renew_ok {b : Byte} (h : Takes (.renew w b) s n s1)
    (hr : s1.takeRenew none (handleOf w) (clampCode b) = (u, .ok x)) {k : Nat} (hs : holdStateNumber x.state = k) :
    exec (.renew w b) s = .next (u.hand (.blockResult n .ok
      (handleBytes (handleOf w) ++ [BitVec.ofNat 8 k] ++ beBytes 4 (x.remaining.getD 0)))) :=
  (exec_renew h hr).trans (congrArg (fun p => Host.Outcome.next (u.hand (.blockResult n .ok p)))
    (renewPayload_eq (handleOf w) hs))

/-- Settles O20. -/
theorem renewActsByTheStateOfTheHold : Obligations.RenewActsByTheStateOfTheHold := by
  refine ⟨fun w b s s1 n i x h hres => ?_, fun node b handle s i x hheld hres hown => ?_⟩
  · have e := State.authorised_port hres
    refine ⟨fun hrep => exec_renew h (State.takeRenew_repeats e hrep), fun hno => ⟨fun hs hadm => ?_, fun hs hadm =>
      exec_renew h (State.takeRenew_denied e hno hs hadm), fun hs => ?_, fun hs hnone => ?_⟩⟩
    · exact exec_renew_ok h (State.takeRenew_renewed e hno (.inl ⟨hs, hadm⟩)) (congrArg holdStateNumber hs)
    · exact exec_renew_ok h (State.takeRenew_renewed e hno (.inr hs)) (congrArg holdStateNumber hs)
    · refine (exec_renew_ok h (State.takeRenew_scheduled e hno hs) (congrArg holdStateNumber hs)).trans ?_
      exact congrArg (fun r : Option Nat => Host.Outcome.next (State.hand _ (.blockResult n .ok
        (handleBytes (handleOf w) ++ [1] ++ beBytes 4 (r.getD 0))))) hnone
  · have e : (s.take (.networkRenew node handle b)).authorised (some node) handle = .ok (i, x) :=
      (State.authorised_node hres node).trans (if_pos hown)
    refine ⟨fun hrep => exec_networkRenew hheld (State.takeRenew_repeats e hrep), fun hno => ⟨fun hs =>
      exec_networkRenew hheld (State.takeRenew_renewed e hno hs), fun hs =>
      exec_networkRenew hheld (State.takeRenew_denied e hno hs.1 hs.2), fun hs =>
      exec_networkRenew hheld (State.takeRenew_scheduled e hno hs)⟩⟩

/-! #### The end of a handling that only settles the table -/

/-- What a handling that leaves the table `t` settles: the table and, where its demand has changed, one report. -/
theorem State.settleTable_plain (s : State) (t : Htm) :
    s.settleTable t [] [] = { s with
      htm := t
      handed := s.handed ++ (if t.demand = s.htm.demand then [] else [.holdDemandReport t.demand []]) } := by
  rw [State.settleTable_eq, if_pos (rfl : ([] : List Flag) = []), List.append_nil]
  simp only [and_true]

/-- A command whose handling settles the table, and hands `last` over behind the report. -/
theorem onlyTable_settled (s : State) (t : Htm) (last : Instr) {r : Result}
    (h : r = .next ((s.settleTable t [] []).hand last)) :
    ∃ u, r = .next u ∧ onlyTable s u ∧ u.htm = t
      ∧ u.handed = s.handed
        ++ (if u.htm.demand = s.htm.demand then [] else [.holdDemandReport u.htm.demand []]) ++ [last] := by
  rw [State.settleTable_plain] at h
  exact ⟨_, h, rfl, rfl, rfl⟩

/-- Settles O21. -/
theorem releaseRetiresTheHold : Obligations.ReleaseRetiresTheHold := by
  refine ⟨fun w s s1 n i x h hres => ?_, fun node handle s i x hheld hres hown => ?_⟩
  · exact onlyTable_settled s1 (s1.htm.retire i) (.blockResult n .ok (handleBytes (handleOf w)))
      (exec_release h (State.takeRelease_of_ok (State.authorised_port hres)))
  · exact onlyTable_settled (s.take (.networkRelease node handle)) (s.htm.retire i) (.htmReturn (.releaseOk node handle))
      (exec_networkRelease hheld (State.takeRelease_of_ok ((State.authorised_node hres node).trans (if_pos hown))))

/-! #### PURGE, CLEAR and LIMITS (R25, R29, R8) -/

theorem retiredSlot_some {sl : Slot} (p : Hold → Bool) (h : sl.hold = some x) :
    retiredSlot p sl = if p x then { gen := sl.gen + 1, hold := none } else sl := by
  unfold retiredSlot
  rw [h]

theorem retiredSlot_none {sl : Slot} (p : Hold → Bool) (h : sl.hold = none) : retiredSlot p sl = sl := by
  unfold retiredSlot
  rw [h]

/-- Settles O23. -/
theorem purgeRetiresTheHoldsOfAnOwner : Obligations.PurgeRetiresTheHoldsOfAnOwner := by
  intro owner s s1 n h
  refine ⟨fun hbad => exec_refused (by rfl) h (if_neg (Nat.not_le_of_lt hbad)), fun hok => ?_⟩
  obtain ⟨t, hexec, honly, hhtm, hhanded⟩ := onlyTable_settled s1
    (s1.htm.retireWhere fun x => x.owner.val = owner.toNat) (.blockResult n .ok _) (exec_ok (by rfl) h (if_pos hok))
  refine ⟨t, hexec, honly, ?_, fun i => ?_, ?_⟩
  · rw [hhtm]
    rfl
  · rw [hhtm]
    refine (Htm.retireWhere_slot _ _ i).trans ?_
    split
    · rename_i x hx
      rw [retiredSlot_some _ hx]
      simp only [decide_eq_true_eq]
    · rename_i hx
      rw [retiredSlot_none _ hx]
  · rw [hhanded, Htm.countWhere_eq]
    rfl

theorem demand_retireAll (t : Htm) : (t.retireWhere fun _ => true).demand = 0 := by
  refine BitVec.eq_of_getLsbD_eq fun d _ => ?_
  refine Eq.trans (Bool.eq_false_iff.mpr fun h => ?_) BitVec.getLsbD_zero.symm
  obtain ⟨i, x, hx, -, -⟩ := (Htm.demand_getLsbD _ d).mp h
  rw [Htm.retireWhere_slot] at hx
  cases hi : (t.slots[i]'i.2).hold with
  | none => rw [retiredSlot_none _ hi, hi] at hx; cases hx
  | some y => rw [retiredSlot_some _ hi, if_pos rfl] at hx; cases hx

theorem Htm.countWhere_true (t : Htm) :
    t.countWhere (fun _ => true) = ((List.finRange 48).filter fun i => (t.slots[i]'i.2).hold.isSome).length := by
  rw [Htm.countWhere_eq]
  refine congrArg List.length (List.filter_congr fun i _ => ?_)
  cases (t.slots[i]'i.2).hold <;> rfl

theorem limitOf_eq (b : Byte) : limitOf b = if b = 0 then 1 else if 48 < b.toNat then 48 else b.toNat := by
  unfold limitOf
  rw [min_eq_ite_lt]
  simp only [bitVec_eq_zero_iff]
  by_cases h0 : b.toNat = 0
  · rw [h0]
    rfl
  · rw [if_neg h0]
    refine max_eq_right ?_
    split
    · decide
    · exact Nat.pos_of_ne_zero h0

/-- Settles O24. -/
theorem clearRetiresAndLimitsAreStored : Obligations.ClearRetiresAndLimitsAreStored := by
  refine ⟨fun s s1 n h => ?_, fun network control source s s1 n h => ?_⟩
  · obtain ⟨t, hexec, honly, hhtm, hhanded⟩ := onlyTable_settled s1
      (s1.htm.retireWhere fun _ => true) (.blockResult n .ok _) (exec_ok (by rfl) h rfl)
    refine ⟨t, hexec, honly, ?_, fun i => ?_, ?_⟩
    · rw [hhtm]
      rfl
    · rw [hhtm]
      refine (Htm.retireWhere_slot _ _ i).trans ?_
      cases hi : (s1.htm.slots[i]'i.2).hold with
      | none =>
        rw [retiredSlot_none _ hi]
        exact congrArg (Slot.mk _) hi
      | some x => rw [retiredSlot_some _ hi, if_pos rfl]; rfl
    · rw [hhanded, hhtm, demand_retireAll, Htm.countWhere_true]
      exact congrArg₂ (· ++ ·) (congrArg (s1.handed ++ ·)
        (if_congr (eq_comm (a := (0 : DomainSet)) (b := s1.htm.demand)) rfl rfl)) rfl
  · intro clamped
    have hc : ∀ b, clamped b = limitOf b := fun b => (limitOf_eq b).symm
    rw [hc, hc, hc]
    exact exec_ok (by rfl) h rfl

/-! #### QUERY and FIND (R23, R24, R201) -/

/-- Seven bits of a byte, added and or-ed. -/
theorem bits_add_eq_or (a b c d e f g : Bool) :
    BitVec.ofNat 8 ((if a then 1 else 0) + (if b then 2 else 0) + (if c then 4 else 0) + (if d then 8 else 0)
        + (if e then 16 else 0) + (if f then 32 else 0) + (if g then 64 else 0))
      = ((if a then 1 else 0) ||| (if b then 2 else 0) ||| (if c then 4 else 0) ||| (if d then 8 else 0)
        ||| (if e then 16 else 0) ||| (if f then 32 else 0) ||| (if g then 64 else 0) : Byte) := by
  revert a b c d e f g
  decide

theorem byte_presenceByte (x : Hold) :
    byte (presenceByte x) =
      [((if x.remaining.isSome then 1 else 0) ||| (if x.countdown.isSome then 2 else 0)
        ||| (if x.interval.isSome then 4 else 0) ||| (if x.sinceStart.isSome then 8 else 0)
        ||| (if x.cap.isSome then 16 else 0) ||| (if x.reason.isSome then 32 else 0)
        ||| (if x.template.isSome then 64 else 0) : Byte)] :=
  congrArg (fun b => [b]) (bits_add_eq_or ..)

theorem byte_holdStateNumber (z : HoldState) :
    byte (holdStateNumber z) = [(match z with | .scheduled => 1 | .active => 2 | .suspended => 3 : Byte)] := by
  cases z <;> rfl

theorem byte_reasonNumber (r : Option SuspendReason) :
    byte (reasonNumber r) = [(match r with | none => 0 | some .tierDrop => 1 | some .notAdmitted => 2 : Byte)] := by
  cases r with
  | none => rfl
  | some r => cases r <;> rfl

theorem byte_template (m : Option (Fin 16)) :
    byte ((m.map (·.val)).getD 0) = [(match m with | none => 0 | some j => BitVec.ofNat 8 j.val : Byte)] := by
  cases m <;> rfl

/-- The answer of FIND: the count of the matches, then their handles in ascending slot order. -/
theorem findPayload_eq (t : Htm) (p : Hold → Bool) :
    byte (t.countWhere p) ++ (t.handlesWhere p).flatMap handleBytes =
      BitVec.ofNat 8 ((List.finRange 48).filter fun i => ((t.slots[i]'i.2).hold.map p).getD false).length ::
        ((List.finRange 48).filter fun i => ((t.slots[i]'i.2).hold.map p).getD false).flatMap fun i =>
          [BitVec.ofNat 8 i.val, (t.slots[i]'i.2).gen.setWidth 8] := by
  unfold Htm.countWhere Htm.handlesWhere
  rw [List.countP_eq_length_filter, List.flatMap_map]
  rfl

theorem exec_find_ok {selector value : Byte} (h : Takes (.find selector value) s n s1) {p : Hold → Bool}
    (hp : findPredicate selector value = some p) :
    exec (.find selector value) s = .next (s1.hand (.blockResult n .ok
      (BitVec.ofNat 8 ((List.finRange 48).filter fun i => ((s1.htm.slots[i]'i.2).hold.map p).getD false).length ::
        ((List.finRange 48).filter fun i => ((s1.htm.slots[i]'i.2).hold.map p).getD false).flatMap fun i =>
          [BitVec.ofNat 8 i.val, (s1.htm.slots[i]'i.2).gen.setWidth 8]))) := by
  rw [← findPayload_eq]
  exact exec_ok (by rfl) h (by rw [hp])

theorem findPredicate_of_range {selector value : Byte}
    (h : 2 < selector.toNat ∨ (selector = 1 ∧ 63 < value.toNat) ∨ (selector = 2 ∧ (value = 0 ∨ 3 < value.toNat))) :
    findPredicate selector value = none := by
  rcases h with h | ⟨rfl, h⟩ | ⟨rfl, h⟩
  · unfold findPredicate
    split
    · omega
    · omega
    · omega
    · rfl
  · exact if_neg (Nat.not_le_of_lt h)
  · have hnone : holdStateOf value = none := by
      unfold holdStateOf
      rcases h with rfl | h
      · rfl
      · split
        · omega
        · omega
        · omega
        · rfl
    exact congrArg (Option.map _) hnone

/-- Settles O22. -/
theorem queryAndFindReadTheTable : Obligations.QueryAndFindReadTheTable := by
  refine ⟨fun w s s1 n i x h hres => ?_, fun node handle s i x hheld hres hown => ?_, fun selector value s s1 n h =>
    ⟨?_, ?_, fun z => ?_, fun hbad => exec_refused (by rfl) h (by rw [findPredicate_of_range hbad])⟩⟩
  · refine (exec_query h (State.authorised_port hres)).trans
      (congrArg (fun p => Host.Outcome.next (s1.hand (.blockResult n .ok p))) ?_)
    show recordBytes (handleOf w) x = _
    unfold recordBytes
    rw [byte_presenceByte, byte_holdStateNumber, byte_reasonNumber, byte_template]
    simp only [List.append_assoc, byte, List.cons_append, List.nil_append] <;> rfl
  · exact exec_networkQuery hheld ((State.authorised_node hres node).trans (if_pos hown))
  · rintro rfl
    exact exec_find_ok h rfl
  · rintro rfl hv
    exact exec_find_ok h (if_pos hv)
  · rintro rfl hv
    have hz : holdStateOf value = some z := by
      rw [hv]
      cases z <;> rfl
    exact exec_find_ok h (congrArg (Option.map fun z (x : Hold) => decide (x.state = z)) hz)

end Sys2Proof.Machine

/-! ### Reports to the TAU and CLASS_CONFIG (R31 to R34, R40 to R47) -/

namespace Sys2Proof.Machine

variable {c : Instr} {s s1 t u : State} {n : Nat} {r : Tau} {run : Bool}

/-! #### What a report records -/

theorem Tier.rank_injective {a b : Tier} (h : a.rank = b.rank) : a = b := by
  revert h
  cases a <;> cases b <;> decide

theorem Tier.rank_le_green (a : Tier) : a.rank ≤ Tier.green.rank := by
  cases a <;> decide

/-- The records as a report to the TAU leaves them, before the tier is formed; none for every other command (R32, R34). -/
def Tau.recorded (tau : Tau) : Instr → Option Tau
  | .budgetTierReport b p => some { tau with budget := b, mode := if p then .park else tau.mode }
  | .voltageCeilingReport v => some { tau with ceiling := v }
  | .modeReport m => some { tau with mode := m }
  | _ => none

theorem Tau.exists_recorded (tau : Tau)
    (h : (∃ b p, c = .budgetTierReport b p) ∨ (∃ v, c = .voltageCeilingReport v) ∨ (∃ m, c = .modeReport m)) :
    ∃ r, tau.recorded c = some r := by
  rcases h with ⟨b, p, rfl⟩ | ⟨v, rfl⟩ | ⟨m, rfl⟩ <;> exact ⟨_, rfl⟩

theorem Tau.recorded_classes {tau : Tau} (h : tau.recorded c = some r) : r.classes = tau.classes := by
  cases c <;> cases h <;> rfl

/-- A report to the TAU in its turn is taken whole. -/
theorem exec_tierReport (h : TakesReport c s) (hr : s.tau.recorded c = some r) :
    exec c s = .next ((s.take c).tierReport r (c = .modeReport .run)) := by
  cases c <;> cases hr
  case budgetTierReport b p => exact exec_report (Eq.refl (execBudgetTierReport b p s)) h rfl
  case voltageCeilingReport v => exact exec_report (Eq.refl (execVoltageCeilingReport v s)) h rfl
  case modeReport m =>
    refine exec_report (Eq.refl (execModeReport m s)) h ?_
    simp only [Instr.modeReport.injEq]
    rfl

/-! #### The sweeps a report calls for -/

theorem State.tierReport_fall (h : r.formed.rank < s.tau.effective.rank) :
    s.tierReport r run = State.sweepDown { s with tau := { r with effective := r.formed } } [.tierChanged] := if_pos h

theorem State.tierReport_rise (h : s.tau.effective.rank < r.formed.rank) :
    s.tierReport r run = State.sweepUp { s with tau := { r with effective := r.formed } } [.tierChanged] :=
  (if_neg h.not_gt).trans (if_pos h)

theorem State.tierReport_run (h : s.tau.effective = r.formed) :
    s.tierReport r true = State.sweepUp { s with tau := { r with effective := r.formed } } [] :=
  (if_neg (h ▸ lt_irrefl _)).trans ((if_neg (h ▸ lt_irrefl _)).trans (if_pos rfl))

theorem State.tierReport_kept (h : s.tau.effective = r.formed) :
    s.tierReport r false = { s with tau := { r with effective := r.formed } } :=
  (if_neg (h ▸ lt_irrefl _)).trans ((if_neg (h ▸ lt_irrefl _)).trans (if_neg Bool.false_ne_true))

theorem onlyTable_settleTable (s : State) (t : Htm) (e : List DomainSet) (fs : List Flag) :
    onlyTable s (s.settleTable t e fs) := by
  rw [State.settleTable_eq]
  rfl

/-- A report leaves the records with the tier they give, and outside the TAU it may change the table and what is handed
over alone. -/
theorem State.tierReport_frame (s : State) (r : Tau) (run : Bool) :
    s.tierReport r run = { s with
      tau := { r with effective := r.formed }
      htm := (s.tierReport r run).htm
      handed := (s.tierReport r run).handed } := by
  rcases lt_trichotomy r.formed.rank s.tau.effective.rank with h | h | h
  · rw [State.tierReport_fall h]
    exact onlyTable_settleTable ..
  · have he := (Tier.rank_injective h).symm
    cases run
    · rw [State.tierReport_kept he]
    · rw [State.tierReport_run he]
      exact onlyTable_settleTable ..
  · rw [State.tierReport_rise h]
    exact onlyTable_settleTable ..

theorem State.tierReport_tau (s : State) (r : Tau) (run : Bool) :
    (s.tierReport r run).tau = { r with effective := r.formed } := by
  rw [State.tierReport_frame]

/-- A report is taken, and outside the TAU, the table and what is handed over nothing changes. -/
theorem exec_tierReport_frame (h : TakesReport c s) (hr : s.tau.recorded c = some r) :
    ∃ t, exec c s = .next t ∧ t = { s with tau := t.tau, htm := t.htm, handed := t.handed }
      ∧ t.tau = { r with effective := r.formed } := by
  refine ⟨_, exec_tierReport h hr, ?_, State.tierReport_tau ..⟩
  rw [State.tierReport_frame]
  rfl

/-- A report that leaves the tier unchanged does nothing further, but for a report of RUN. -/
theorem exec_tierReport_kept (h : TakesReport c s) (hr : s.tau.recorded c = some r) (hrun : c ≠ .modeReport .run)
    (he : exec c s = .next t) (hsame : t.tau.effective = s.tau.effective) :
    t.htm = s.htm ∧ t.handed = s.handed.erase c := by
  rw [exec_tierReport h hr, decide_eq_false hrun] at he
  cases he
  rw [State.tierReport_tau] at hsame
  rw [State.tierReport_kept (s := s.take c) hsame.symm]
  exact ⟨rfl, rfl⟩

/-! #### Reports in the order of their source (R32, R49, R79) -/

theorem takesReport_of_oldest (hheld : s.held = false)
    (h : (s.handed.find? fun e => e.reportPath = c.reportPath) = none
      ∨ (s.handed.find? fun e => e.reportPath = c.reportPath) = some c) : TakesReport c s := by
  refine ⟨hheld, State.reportIsNext_iff.mpr fun e he => ?_⟩
  rcases h with h | h <;> rw [h] at he <;> cases he
  rfl

/-- Every report whose order its source keeps is taken by `arriveReport`. -/
theorem exec_arriveReport (h : c.reportPath.isSome = true) (s : State) :
    ∃ f, exec c s = arriveReport c s f := by
  have row {e : State → Result} {f : State → State} (hexec : exec c s = e s) (he : e s = arriveReport c s f) :
      ∃ f, exec c s = arriveReport c s f := ⟨f, hexec.trans he⟩
  cases c <;> cases h
  case portReset => exact row (e := execPortReset) rfl rfl
  case portLive => exact row (e := execPortLive) rfl rfl
  case budgetTierReport b p => exact row (e := execBudgetTierReport b p) rfl rfl
  case voltageCeilingReport v => exact row (e := execVoltageCeilingReport v) rfl rfl
  case modeReport m => exact row (e := execModeReport m) rfl rfl
  case holdDemandReport d l => exact row (e := execHoldDemandReport d l) rfl rfl
  case runDemandReport a => exact row (e := execRunDemandReport a) rfl rfl
  case parkEntryRefill => exact row (e := execParkEntryRefill) rfl rfl
  case modeRecord m => exact row (e := execModeRecord m) rfl rfl

/-- A report behind an earlier one of its source waits, or is handed over behind it. -/
theorem exec_report_behind {e : Instr} (hheld : s.held = false) (hc : c.reportPath.isSome = true)
    (he : (s.handed.find? fun e => e.reportPath = c.reportPath) = some e) (hne : e ≠ c) :
    exec c s = .next (if c ∈ s.handed then s else s.hand c) := by
  obtain ⟨f, hf⟩ := exec_arriveReport hc s
  have hnext : s.reportIsNext c = false :=
    Bool.eq_false_iff.mpr fun h => hne (State.reportIsNext_iff.mp h e he)
  rw [hf]
  unfold arriveReport
  rw [hheld, hnext]
  exact (apply_ite Host.Outcome.next ..).symm

/-- Settles O26. -/
theorem reportsFormTheEffectiveTier : Obligations.ReportsFormTheEffectiveTier := by
  refine ⟨fun s => ⟨fun b p h => ?_, fun v h => ?_, fun m h => ?_⟩, fun c s t h hc he hsame => ?_, fun c s hheld hc =>
    ⟨takesReport_of_oldest hheld, fun e => exec_report_behind hheld hc⟩, fun _ _ _ _ _ _ _ =>
    ⟨rfl, rfl, rfl, rfl, rfl, rfl, rfl, rfl, rfl⟩⟩
  · exact exec_tierReport_frame h rfl
  · exact exec_tierReport_frame h rfl
  · exact exec_tierReport_frame h rfl
  · rcases hc with ⟨b, p, rfl⟩ | ⟨v, rfl⟩ | ⟨m, rfl, hm⟩
    · exact exec_tierReport_kept h rfl nofun he hsame
    · exact exec_tierReport_kept h rfl nofun he hsame
    · exact exec_tierReport_kept h rfl (fun e => hm (Instr.modeReport.inj e)) he hsame

end Sys2Proof.Machine

namespace Sys2Proof.Machine

variable {c : Instr} {s s1 t u : State} {n : Nat} {r : Tau} {run : Bool}

/-! #### A fall of the tier (R40 to R42) -/

theorem Tau.aboveTier_eq (tau : Tau) (h : Hold) :
    tau.aboveTier h = decide (tau.effective.rank < (tau.classes[h.cls]'h.cls.2).floor.rank) := by
  unfold Tau.aboveTier Tau.floorOk
  rw [← decide_not, decide_eq_decide]
  exact Nat.not_le

/-- A suspend sweep by the holds that it meets: `q` are the ACTIVE ones that satisfy `p`. -/
theorem Htm.suspendWhere_slot {p q : Hold → Bool} (hq : ∀ h : Hold, (decide (h.state = .active) && p h) = q h) (t : Htm)
    (i : Fin 48) : (t.suspendWhere p).slots[i] = { t.slots[i]'i.2 with
      hold := (t.slots[i]'i.2).hold.map fun h => if q h then { h with state := .suspended, reason := some .tierDrop } else h } := by
  rw [Htm.suspendWhere, Htm.mapHolds_slot, funext fun h => if_congr (iff_of_eq (congrArg (· = true) (hq h))) rfl rfl]
  rfl

theorem Htm.someActive_eq {p q : Hold → Bool} (hq : ∀ h : Hold, (decide (h.state = .active) && p h) = q h) (t : Htm) :
    t.someActive p = (List.finRange 48).any fun i => ((t.slots[i]'i.2).hold.map q).getD false := by
  unfold Htm.someActive
  simp only [hq]
  rfl

/-- The setting of flags of a fall (R40 to R42; log 14). -/
theorem fallFlags_eq (b : Bool) :
    (if [Flag.tierChanged] ++ (if b then [Flag.holdSuspended] else []) = [] then []
      else [Instr.flagSetting (flagsOf ([Flag.tierChanged] ++ (if b then [Flag.holdSuspended] else [])))])
      = [.flagSetting (if b then 0x0088 else 0x0080)] := by
  cases b <;> rfl

/-- Settles O27. -/
theorem aFallSuspendsTheHoldsAboveTheTier : Obligations.AFallSuspendsTheHoldsAboveTheTier := by
  intro s t c h hc he hfall falls
  obtain ⟨r, hr⟩ := s.tau.exists_recorded hc
  have ht := (exec_tierReport h hr).symm.trans he
  have htau : t.tau = { r with effective := r.formed } := by
    cases ht
    exact State.tierReport_tau ..
  have hfalls : ∀ x : Hold, (decide (x.state = .active) && Tau.aboveTier { r with effective := r.formed } x) = falls x :=
    fun x => by
      simp only [falls]
      rw [Tau.aboveTier_eq, Bool.decide_and, htau, ← Tau.recorded_classes hr]
  rw [htau] at hfall
  rw [State.tierReport_fall (s := s.take c) hfall] at ht
  cases ht
  unfold State.sweepDown
  rw [State.settleTable_eq]
  refine ⟨Htm.suspendWhere_slot hfalls s.htm, ?_⟩
  dsimp only
  rw [fallFlags_eq, Htm.someActive_eq hfalls]
  simp only [and_true]
  rfl

end Sys2Proof.Machine

namespace Sys2Proof.Machine

variable {c : Instr} {s s1 t u : State} {n : Nat} {r : Tau} {run : Bool} {x : Htm} {i : Fin 48} {h : Hold}

/-! #### A resume sweep (R43 to R46) -/

/-- A resume sweep of `u` leaves the table `x`: each slot has its turn with the lower slots as the sweep leaves them and
the others as it found them (R44). -/
def Swept (u : State) (x : Htm) : Prop :=
  ∀ i : Fin 48, ∃ atTurn : Htm, (∀ j : Fin 48, j < i → atTurn.slots[j] = x.slots[j])
    ∧ (∀ j : Fin 48, i ≤ j → atTurn.slots[j] = u.htm.slots[j])
    ∧ x.slots[i] = resumedSlot (u.withHtm atTurn) i (u.htm.slots[i])

theorem resumedSlot_tried {sl : Slot} (hi : sl.hold = some h) (hs : h.state = .suspended)
    (hf : s.tau.floorOk h.cls = true) :
    resumedSlot s i sl = if s.admits (some i) h.cls h.mask h.code then { sl with hold := some h.activated } else sl := by
  unfold resumedSlot
  rw [hi]
  simp only [hs, hf, decide_true, Bool.true_and]

theorem resumedSlot_kept {sl : Slot}
    (hk : ∀ h, sl.hold = some h → h.state ≠ .suspended ∨ s.tau.floorOk h.cls = false) : resumedSlot s i sl = sl := by
  unfold resumedSlot
  split
  · rename_i h hi
    refine if_neg fun hb => ?_
    rw [Bool.and_eq_true, Bool.and_eq_true, decide_eq_true_eq] at hb
    exact (hk h hi).elim (· hb.1.1) fun hf => Bool.noConfusion (hf.symm.trans hb.1.2)
  · rfl

/-- A slot that a turn leaves without a mask for the report is as it was. -/
theorem resumedSlot_of_no_mask {sl : Slot} (hm : resumedMask sl (resumedSlot s i sl) = none) :
    resumedSlot s i sl = sl := by
  unfold resumedSlot at hm ⊢
  split
  · rename_i h hi
    simp only [hi] at hm ⊢
    refine if_neg fun hb => ?_
    rw [if_pos hb] at hm
    rw [Bool.and_eq_true, Bool.and_eq_true, decide_eq_true_eq] at hb
    simp [resumedMask, hi, hb.1.1, Hold.activated] at hm
  · rfl

/-- A SUSPENDED hold at or below the tier becomes ACTIVE exactly when it passes admission at its turn. -/
theorem Swept.tried (hx : Swept u x) (hi : (u.htm.slots[i]'i.2).hold = some h) (hs : h.state = .suspended)
    (hf : u.tau.floorOk h.cls = true) :
    ∃ atTurn : Htm, (∀ j : Fin 48, j < i → atTurn.slots[j] = x.slots[j])
      ∧ (∀ j : Fin 48, i ≤ j → atTurn.slots[j] = u.htm.slots[j])
      ∧ ((u.withHtm atTurn).admits (some i) h.cls h.mask h.code = true →
          x.slots[i] = { u.htm.slots[i]'i.2 with hold := some { h with state := .active, reason := none } })
      ∧ ((u.withHtm atTurn).admits (some i) h.cls h.mask h.code = false → x.slots[i] = u.htm.slots[i]) := by
  obtain ⟨atTurn, hlow, hhigh, hown⟩ := hx i
  rw [resumedSlot_tried (s := u.withHtm atTurn) hi hs hf] at hown
  exact ⟨atTurn, hlow, hhigh, fun ha => hown.trans (if_pos ha), fun ha => hown.trans (if_neg (ne_true_of_eq_false ha))⟩

/-- Every slot without a SUSPENDED hold at or below the tier stays as it was. -/
theorem Swept.kept (hx : Swept u x)
    (hk : ∀ h, (u.htm.slots[i]'i.2).hold = some h → h.state ≠ .suspended ∨ u.tau.floorOk h.cls = false) :
    x.slots[i] = u.htm.slots[i] := by
  obtain ⟨atTurn, -, -, hown⟩ := hx i
  exact hown.trans (resumedSlot_kept hk)

/-- Outside PARK every SUSPENDED hold at or below the tier resumes (R46). -/
theorem Swept.none_suspended (hx : Swept u x) (hmode : u.tau.mode ≠ .park) (hf : ∀ k, u.tau.floorOk k = true)
    (hi : (x.slots[i]'i.2).hold = some h) : h.state ≠ .suspended := by
  obtain ⟨atTurn, -, -, hown⟩ := hx i
  intro hs
  rw [hown] at hi
  cases hu : (u.htm.slots[i]'i.2).hold with
  | none =>
    rw [resumedSlot_kept (fun g hg => nomatch hu.symm.trans hg), hu] at hi
    cases hi
  | some g =>
    by_cases hg : g.state = .suspended
    · have hadm : (u.withHtm atTurn).admits (some i) g.cls g.mask g.code = true := by
        rw [State.admits_iff]
        exact ⟨(Tau.floorOk_iff _ _).mp (hf g.cls), fun hp => absurd hp hmode⟩
      rw [resumedSlot_tried (s := u.withHtm atTurn) hu hg (hf g.cls), if_pos hadm] at hi
      cases hi
      cases hs
    · rw [resumedSlot_kept (fun y hy => .inl (Option.some.inj (hu.symm.trans hy) ▸ hg)), hu] at hi
      cases hi
      exact hg hs

/-- Where no hold resumes the set of domains with hold-demand stays. -/
theorem Swept.demand_eq (hx : Swept u x) (hm : resumedMasks u.htm x = []) : x.demand = u.htm.demand := by
  rw [resumedMasks_eq, List.filterMap_eq_nil_iff] at hm
  refine Htm.demand_congr fun i => ?_
  obtain ⟨atTurn, -, -, hown⟩ := hx i
  have hnone := hm i (mem_allSlots i)
  rw [hown] at hnone
  rw [hown, resumedSlot_of_no_mask hnone]

/-- All that a resume sweep with its report and flags does. -/
theorem State.sweepUp_eq (u : State) (fs : List Flag) :
    ∃ x, Swept u x ∧ u.sweepUp fs = { u with
      htm := x
      handed := u.handed
        ++ (if resumedMasks u.htm x = [] then [] else [.holdDemandReport x.demand (resumedMasks u.htm x)])
        ++ (if fs ++ (if resumedMasks u.htm x = [] then [] else [.holdResumed]) = [] then []
          else [.flagSetting (flagsOf (fs ++ if resumedMasks u.htm x = [] then [] else [.holdResumed]))]) } := by
  have hswept : Swept u u.resumeSweep.1.htm := resumeSweep_turn u
  refine ⟨_, hswept, ?_⟩
  unfold State.sweepUp
  dsimp only
  rw [resumeSweep_masks]
  generalize u.resumeSweep.1.htm = x at hswept
  rw [State.settleTable_eq]
  have hcond : (x.demand = u.htm.demand ∧ resumedMasks u.htm x = []) ↔ resumedMasks u.htm x = [] :=
    and_iff_right_of_imp hswept.demand_eq
  simp only [hcond]

/-- The setting of flags of a rise, or of a report of RUN (R44, R46; log 14). -/
theorem resumeFlags_eq (rise quiet : Prop) [Decidable rise] [Decidable quiet] :
    (if (if rise then [Flag.tierChanged] else []) ++ (if quiet then [] else [Flag.holdResumed]) = [] then []
      else [Instr.flagSetting (flagsOf ((if rise then [Flag.tierChanged] else [])
        ++ if quiet then [] else [Flag.holdResumed]))])
      = if (if rise then 0x0080 else 0 : FlagSet) ||| (if quiet then 0 else 0x0010) = 0 then []
        else [.flagSetting ((if rise then 0x0080 else 0) ||| if quiet then 0 else 0x0010)] := by
  by_cases h1 : rise <;> by_cases h2 : quiet <;> simp only [h1, h2, if_true, if_false] <;> rfl

/-- A rise of the tier, or a report of RUN that keeps it, sweeps the SUSPENDED holds. -/
theorem exec_tierReport_sweeps (hc : TakesReport c s) (hr : s.tau.recorded c = some r) (he : exec c s = .next t)
    (hrise : s.tau.effective.rank < t.tau.effective.rank
      ∨ (c = .modeReport .run ∧ s.tau.effective = t.tau.effective)) :
    t.tau = { r with effective := r.formed }
      ∧ t = State.sweepUp { s.take c with tau := { r with effective := r.formed } }
        (if s.tau.effective.rank < r.formed.rank then [.tierChanged] else []) := by
  have ht := (exec_tierReport hc hr).symm.trans he
  cases ht
  refine ⟨State.tierReport_tau .., ?_⟩
  rw [State.tierReport_tau] at hrise
  rcases hrise with hrise | ⟨hrun, hsame⟩
  · rw [State.tierReport_rise (s := s.take c) hrise, if_pos hrise]
  · rw [decide_eq_true hrun, State.tierReport_run (s := s.take c) hsame, if_neg (hsame ▸ lt_irrefl _)]

/-- Settles O28. -/
theorem aResumeSweepTriesInSlotOrder : Obligations.AResumeSweepTriesInSlotOrder := by
  intro s t c h hc he hrise
  obtain ⟨r, hr⟩ := s.tau.exists_recorded hc
  obtain ⟨htau, ht⟩ := exec_tierReport_sweeps h hr he hrise
  obtain ⟨x, hx, hsweep⟩ := State.sweepUp_eq { s.take c with tau := { r with effective := r.formed } }
    (if s.tau.effective.rank < r.formed.rank then [.tierChanged] else [])
  rw [hsweep, resumeFlags_eq] at ht
  have hfloor : ∀ k, Tau.floorOk { r with effective := r.formed } k = true ↔
      (t.tau.classes[k]'k.2).floor.rank ≤ t.tau.effective.rank := fun k => htau ▸ Tau.floorOk_iff _ _
  refine ⟨fun i g hi hs hf => ?_, fun i hk => ?_, ?_, ?_⟩
  · obtain ⟨atTurn, hlow, hhigh, hyes, hno⟩ := hx.tried hi hs ((hfloor g.cls).mpr hf)
    have hadm : ({ s with tau := t.tau, htm := atTurn } : State).admits (some i) g.cls g.mask g.code
        = (({ s.take c with tau := { r with effective := r.formed } } : State).withHtm atTurn).admits (some i) g.cls
          g.mask g.code := State.admits_congr htau rfl rfl rfl
    rw [ht]
    exact ⟨atTurn, hlow, hhigh, fun ha => hyes (hadm ▸ ha), fun ha => hno (hadm ▸ ha)⟩
  · rw [ht]
    refine hx.kept fun g hg => (hk g hg).imp_right fun hlt => Bool.eq_false_iff.mpr fun hf => ?_
    exact hlt.not_ge ((hfloor g.cls).mp hf)
  · rintro rfl i g hi
    cases hr
    rw [ht] at hi
    exact hx.none_suspended nofun (fun k => (Tau.floorOk_iff _ _).mpr (Tier.rank_le_green _)) hi
  · rw [htau, ht]
    rfl

end Sys2Proof.Machine

namespace Sys2Proof.Machine

variable {c : Instr} {s s1 t u : State} {n : Nat} {x : Htm} {i : Fin 48} {h : Hold} {k : Fin 8} {old f : Tier}

/-! #### CLASS_CONFIG (R31, R47) -/

theorem tierOfNumber_of_range {b : Byte} (h : 3 < b.toNat) : tierOfNumber b = none := by
  unfold tierOfNumber
  split <;> first | rfl | omega

theorem tierOfNumber_of_rank {b : Byte} (h : b.toNat = f.rank) : tierOfNumber b = some f := by
  unfold tierOfNumber
  rw [h]
  cases f <;> rfl

theorem Htm.someActive_iff {p : Hold → Bool} {t : Htm} :
    t.someActive p = true ↔ ∃ i : Fin 48, ∃ h, (t.slots[i]'i.2).hold = some h ∧ h.state = .active ∧ p h = true := by
  simp only [Htm.someActive, List.any_eq_true, mem_allSlots, true_and]
  refine exists_congr fun i => ?_
  cases (t.slots[i]'i.2).hold <;> simp

theorem Htm.mapHolds_eq_self {t : Htm} {g : Hold → Hold}
    (hg : ∀ i : Fin 48, ∀ h, (t.slots[i]'i.2).hold = some h → g h = h) : t.mapHolds g = t := by
  have hmap : ∀ i : Fin 48, (t.slots[i]'i.2).hold.map g = (t.slots[i]'i.2).hold := fun i => by
    cases hi : (t.slots[i]'i.2).hold with
    | none => rfl
    | some h => exact congrArg some (hg i h hi)
  have hslots : (t.mapHolds g).slots = t.slots := by
    refine Vector.ext fun j hj => ?_
    exact (Htm.mapHolds_slots t g j hj).trans (congrArg (Slot.mk _) (hmap ⟨j, hj⟩))
  exact Eq.trans (sameLimits_mapHolds t g) (congrArg (fun v => { t with slots := v }) hslots)

/-- A suspend sweep changes the table exactly where it meets a hold. -/
theorem Htm.suspendWhere_eq_self_iff {p : Hold → Bool} {t : Htm} : t.suspendWhere p = t ↔ t.someActive p = false := by
  refine ⟨fun he => Bool.eq_false_iff.mpr fun hs => ?_, fun hs => Htm.mapHolds_eq_self fun i h hi => if_neg fun hp => ?_⟩
  · obtain ⟨i, h, hi, hact, hp⟩ := Htm.someActive_iff.mp hs
    have := (Htm.suspendWhere_active (he ▸ hi) hact).2
    exact Bool.noConfusion (hp.symm.trans this)
  · rw [Bool.and_eq_true, decide_eq_true_eq] at hp
    exact Bool.noConfusion (hs.symm.trans (Htm.someActive_iff.mpr ⟨i, h, hi, hp⟩))

/-- A floor raised above the tier suspends the ACTIVE holds of the class. -/
theorem State.applyFloor_above (h1 : old.rank < f.rank) (h2 : s.tau.effective.rank < f.rank) :
    s.applyFloor k old f = s.settleTable (s.htm.suspendWhere fun h => h.cls = k) []
      (if s.htm.someActive fun h => h.cls = k then [.holdSuspended] else []) :=
  (if_pos h1).trans (if_pos h2)

/-- A floor raised less far, or kept, moves no hold. -/
theorem State.applyFloor_kept (h1 : old.rank ≤ f.rank) (h2 : f.rank ≤ s.tau.effective.rank ∨ old = f) :
    s.applyFloor k old f = s := by
  unfold State.applyFloor
  rw [if_neg h1.not_gt]
  by_cases hlt : old.rank < f.rank
  · rw [if_pos hlt, if_neg (h2.resolve_right fun e => hlt.ne (congrArg Tier.rank e)).not_gt]
  · rw [if_neg hlt]

/-- A lowered floor runs a resume sweep. -/
theorem State.applyFloor_lowered (h1 : f.rank < old.rank) : s.applyFloor k old f = s.sweepUp [] :=
  (if_neg h1.not_gt).trans (if_pos h1)

theorem State.applyFloor_frame (s : State) (k : Fin 8) (old f : Tier) : onlyTable s (s.applyFloor k old f) := by
  unfold State.applyFloor State.sweepUp
  repeat' split
  all_goals first | exact onlyTable_settleTable .. | rfl

/-- The TAU with both settings of a class replaced (R31). -/
def State.withClass (s : State) (k : Fin 8) (f : Tier) (reserve : Byte) : State :=
  { s with tau := { s.tau with classes := s.tau.classes.set k { floor := f, reserve := reserve } } }

theorem exec_classConfig {cls floor reserve : Byte} (h : Takes (.classConfig cls floor reserve) s n s1)
    (hc : cls.toNat = k.val) (hf : floor.toNat = f.rank) :
    exec (.classConfig cls floor reserve) s = .next (((s1.withClass k f reserve).applyFloor k
        (s1.tau.classes[k]'k.2).floor f).hand (.blockResult n .ok [floor, reserve])) := by
  refine exec_ok (by rfl) h ?_
  rw [indexOf_of_eq hc, tierOfNumber_of_rank hf]
  exact congrArg (fun b => (_, Reply.ok [b, reserve])) (ofNat_of_eq hf)

/-- The report and the setting of a lowered floor. -/
theorem loweredHanded_eq (quiet : Prop) [Decidable quiet] (report : Instr) :
    (if quiet then [] else [report])
      ++ (if [] ++ (if quiet then [] else [Flag.holdResumed]) = [] then []
        else [Instr.flagSetting (flagsOf ([] ++ if quiet then [] else [Flag.holdResumed]))])
      = if quiet then [] else [report, .flagSetting 0x0010] := by
  by_cases hq : quiet <;> simp only [hq, if_true, if_false] <;> rfl

/-- A floor raised above the tier: the ACTIVE holds of the class are suspended, with one report of a changed demand, and
one setting where there are any. -/
theorem State.applyFloor_above_spec (h1 : old.rank < f.rank) (h2 : s.tau.effective.rank < f.rank) :
    (∀ i : Fin 48, (s.applyFloor k old f).htm.slots[i] = { s.htm.slots[i]'i.2 with
      hold := (s.htm.slots[i]'i.2).hold.map fun h =>
        if h.state = .active ∧ h.cls = k then { h with state := .suspended, reason := some .tierDrop } else h })
    ∧ (s.applyFloor k old f).handed = s.handed
      ++ (if (s.applyFloor k old f).htm.demand = s.htm.demand then []
        else [.holdDemandReport (s.applyFloor k old f).htm.demand []])
      ++ (if (s.applyFloor k old f).htm = s.htm then [] else [.flagSetting 0x0008]) := by
  rw [State.applyFloor_above h1 h2, State.settleTable_eq]
  refine ⟨fun i => ?_, ?_⟩
  · refine (Htm.suspendWhere_slot (q := fun h => decide (h.state = .active ∧ h.cls = k))
      (fun h => (Bool.decide_and ..).symm) s.htm i).trans ?_
    simp only [decide_eq_true_eq]
  · dsimp only
    rw [if_congr Htm.suspendWhere_eq_self_iff rfl rfl]
    cases s.htm.someActive fun h => decide (h.cls = k) <;> simp only [and_true] <;> rfl

/-- A lowered floor: the SUSPENDED holds are tried as a resume sweep does. -/
theorem State.applyFloor_lowered_spec (h1 : f.rank < old.rank) :
    ∃ x, Swept s x ∧ (s.applyFloor k old f).htm = x ∧ (s.applyFloor k old f).handed = s.handed
      ++ if resumedMasks s.htm x = [] then []
        else [.holdDemandReport x.demand (resumedMasks s.htm x), .flagSetting 0x0010] := by
  obtain ⟨x, hx, he⟩ := State.sweepUp_eq s []
  rw [State.applyFloor_lowered h1, he]
  refine ⟨x, hx, rfl, ?_⟩
  dsimp only
  rw [List.append_assoc, loweredHanded_eq]

/-- Settles O29. -/
theorem classConfigPutsTheFloorToTheTable : Obligations.ClassConfigPutsTheFloorToTheTable := by
  intro cls floor reserve s s1 n h
  refine ⟨fun hbad => exec_refused (by rfl) h ?_, ?_⟩
  · rcases hbad with hbad | hbad
    · rw [indexOf_of_range hbad]
    · rw [tierOfNumber_of_range hbad]
      cases indexOf 8 cls <;> rfl
  intro k f hc hf result
  have hframe := State.applyFloor_frame (s1.withClass k f reserve) k (s1.tau.classes[k]'k.2).floor f
  refine ⟨_, exec_classConfig h hc hf, ?_, ?_, fun h1 h2 => ?_, fun h1 h2 => ?_, fun h1 => ?_⟩
  · rw [hframe]
    rfl
  · rw [hframe]
    rfl
  · obtain ⟨hslots, hhanded⟩ := State.applyFloor_above_spec (k := k) (s := s1.withClass k f reserve) h1 h2
    exact ⟨hslots, congrArg (· ++ [result]) hhanded⟩
  · rw [State.applyFloor_kept (s := s1.withClass k f reserve) h1 h2]
    exact ⟨rfl, rfl⟩
  · obtain ⟨x, hx, rfl, hhanded⟩ := State.applyFloor_lowered_spec (k := k) (s := s1.withClass k f reserve) h1
    have htau : ((s1.withClass k f reserve).applyFloor k (s1.tau.classes[k]'k.2).floor f).tau
        = (s1.withClass k f reserve).tau := by rw [hframe]
    refine ⟨?_, ?_, congrArg (· ++ [result]) hhanded⟩ <;> rw [State.hand_tau, htau]
    · intro i g hi hs hfloor
      exact hx.tried hi hs ((Tau.floorOk_iff _ _).mpr hfloor)
    · exact fun i hk => hx.kept fun g hg => (hk g hg).imp_right fun hlt =>
        Bool.eq_false_iff.mpr fun hf => hlt.not_ge ((Tau.floorOk_iff _ _).mp hf)

end Sys2Proof.Machine

/-! ### The Domain Switch Controller (04) -/

namespace Sys2Proof.Machine

variable {c : Instr} {s s1 t u : State} {n : Nat} {i : Fin 12} {d d' : Domain} {flags : List Flag}

/-! #### The transitions of one domain -/

theorem backoffSeconds_succ (a : Nat) : backoffSeconds (a + 1) = if a = 0 then 1 else if a = 1 then 4 else 16 := by
  unfold backoffSeconds
  simp only [Nat.add_eq_right, Nat.reduceEqDiff]

/-- A fault report on a closed gate before the fourth attempt (R86). -/
theorem Domain.tripped_faulted (h : d.attempts ≤ 2) :
    d.tripped = { d with
      state := .faulted
      timer := some (seconds (if d.attempts = 0 then 1 else if d.attempts = 1 then 4 else 16))
      attempts := d.attempts + 1 } := by
  unfold Domain.tripped
  rw [if_neg (by omega), backoffSeconds_succ]
  rfl

/-- A fault report on a closed gate at the fourth attempt (R86). -/
theorem Domain.tripped_latched (h : 3 ≤ d.attempts) :
    d.tripped = { d with state := .latched, timer := none, attempts := d.attempts + 1 } :=
  if_pos (by omega)

theorem Domain.tripFlag_eq (d : Domain) :
    d.tripFlag = if d.attempts ≤ 2 then .domainFault else .domainLatched := by
  unfold Domain.tripFlag
  by_cases h : d.attempts ≤ 2
  · rw [if_pos h, if_neg (by omega)]
  · rw [if_neg h, if_pos (by omega)]

theorem Domain.tripFlag_mask (d : Domain) : d.tripFlag.mask = if d.attempts ≤ 2 then 0x0100 else 0x0200 := by
  rw [Domain.tripFlag_eq]
  by_cases h : d.attempts ≤ 2
  · rw [if_pos h, if_pos h]
    rfl
  · rw [if_neg h, if_neg h]
    rfl

theorem Domain.wakeIf_true (d : Domain) {demanded usable : Bool} (hd : demanded = true) (hu : usable = true) :
    d.wakeIf demanded usable = { d with state := .waking, timer := some (ms d.settle) } := by
  subst hd hu
  rfl

theorem Domain.wakeIf_false (d : Domain) {demanded usable : Bool} (h : demanded = false ∨ usable = false) :
    d.wakeIf demanded usable = d := by
  refine if_neg fun hb => ?_
  rw [Bool.and_eq_true] at hb
  exact h.elim (ne_true_of_eq_false · hb.1) (ne_true_of_eq_false · hb.2)

theorem Domain.runOut_draining (h : 0 < d.runDown) :
    d.runOut = { d with state := .draining, timer := some (seconds d.runDown) } := if_neg (Nat.ne_of_gt h)

theorem Domain.runOut_off (h : d.runDown = 0) : d.runOut = { d with state := .off, timer := none, attempts := 0 } :=
  if_pos h

theorem Domain.onDemand_same (d : Domain) (usable : Bool) : d.onDemand d.demanded usable = d := if_pos rfl

/-- A change of demanded status acts by the table of R79. -/
theorem actsOnDemand_onDemand (d : Domain) (wanted usable : Bool) :
    actsOnDemand d (d.onDemand wanted usable) wanted usable := by
  refine ⟨fun h => h ▸ d.onDemand_same usable, ?_, ?_⟩
  · rintro rfl hd
    have hne : ¬ true = d.demanded := hd ▸ Bool.noConfusion
    unfold Domain.onDemand
    rw [if_neg hne]
    refine ⟨fun hs hu => ?_, fun hs hu => ?_, fun hs => ?_, fun hs => ?_⟩
    · simp only [hs]
      exact Domain.wakeIf_true _ rfl hu
    · simp only [hs]
      exact Domain.wakeIf_false _ (.inr hu)
    · simp only [hs]
      rfl
    · rcases hs with hs | hs | hs | hs <;> simp only [hs]
  · rintro rfl hd
    have hne : ¬ false = d.demanded := hd ▸ Bool.noConfusion
    unfold Domain.onDemand
    rw [if_neg hne]
    refine ⟨fun hs hr => ?_, fun hs hr => ?_, fun hs => ?_⟩
    · simp only [hs]
      exact Domain.runOut_draining hr
    · simp only [hs]
      exact Domain.runOut_off hr
    · dsimp only
      cases hst : d.state <;> first | rfl | exact absurd hst hs

/-! #### The conditions of a domain -/

theorem Dsc.unmet_eq (d : Dsc) (i : Fin 12) :
    d.unmet i = ((d.domains[i]'i.2).state == .latched || !(d.domains[i]'i.2).enable
      || (i.val != 0 && !d.masterOpen)) := by
  unfold Dsc.unmet Dsc.usable Dsc.gateFree
  rw [Bool.not_and, Bool.not_or, ← Bool.or_assoc]
  by_cases h : i.val = 0
  · simp [h]
  · rw [decide_eq_false h, bne_iff_ne.mpr h]
    rfl

theorem Dsc.demandUnmet_eq (d : Dsc) (entered : List DomainSet) :
    d.demandUnmet entered = entered.any fun m => (List.finRange 12).any fun i => m.getLsbD i.val
      && ((d.domains[i]'i.2).state == .latched || !(d.domains[i]'i.2).enable || (i.val != 0 && !d.masterOpen)) := by
  unfold Dsc.demandUnmet
  simp only [Dsc.unmet_eq]
  rfl

theorem Dsc.redemanded_domains (d : Dsc) (i : Fin 12) :
    d.redemanded.domains[i] = (d.domains[i]'i.2).onDemand (d.isDemanded i) (d.usable i) :=
  Dsc.mapDomains_domains d _ i.val i.isLt

/-! #### The end of a handling (R86, R93) -/

theorem DomainState.portLive_eq (x : DomainState) : x.portLive = (x == .on || x == .draining) := by
  cases x <;> rfl

theorem Dsc.entryFaultFlags_eq (before after : Dsc) (trips : DomainSet) :
    before.entryFaultFlags after trips = ((List.finRange 12).filter (before.tripsAtEntry after trips)).map fun i =>
      .flagSetting (if (after.domains[i]'i.2).attempts ≤ 2 then 0x0100 else 0x0200) := by
  unfold Dsc.entryFaultFlags
  simp only [Domain.tripFlag_mask]
  rfl

/-- Settles O36. -/
theorem demandReportsMoveTheDomains : Obligations.DemandReportsMoveTheDomains := by
  refine ⟨fun s d flags => ?_, fun s => ⟨fun demand entered h => ?_, fun asserted h => ?_⟩⟩
  · intro live before after trips
    refine ⟨s.dsc.afterEntryFaults d s.inputs.trips, ?_, Dsc.afterEntryFaults_eq .., fun i => ⟨fun h => ?_, fun h hle =>
      ?_, fun h hle => ?_⟩⟩
    · rw [State.settleDomains_eq, Dsc.entryFaultFlags_eq]
      unfold portCrossing
      rw [DomainState.portLive_eq, DomainState.portLive_eq]
      rfl
    · exact (Dsc.afterEntryFaults_domains _ _ _ i.val i.isLt).trans (if_neg (ne_true_of_eq_false h))
    · exact (Dsc.afterEntryFaults_domains _ _ _ i.val i.isLt).trans ((if_pos h).trans (Domain.tripped_faulted hle))
    · exact (Dsc.afterEntryFaults_domains _ _ _ i.val i.isLt).trans ((if_pos h).trans (Domain.tripped_latched hle))
  · refine ⟨Dsc.redemanded { s.dsc with holdDemand := demand },
      exec_report (Eq.refl (execHoldDemandReport demand entered s)) h ?_, rfl, fun i => ?_⟩
    · rw [← Dsc.demandUnmet_eq]
      rfl
    · rw [Dsc.redemanded_domains]
      exact actsOnDemand_onDemand _ _ _
  · refine ⟨Dsc.redemanded { s.dsc with runDemand := asserted },
      exec_report (Eq.refl (execRunDemandReport asserted s)) h rfl, rfl, fun i => ?_⟩
    rw [Dsc.redemanded_domains]
    exact actsOnDemand_onDemand _ _ _

end Sys2Proof.Machine

namespace Sys2Proof.Machine

variable {c : Instr} {s s1 t u : State} {n : Nat} {i : Fin 12} {d d' : Domain} {flags : List Flag}

/-! #### Fault reports and expiries (R83 to R87) -/

theorem Dsc.updateDomain_eq {x : Dsc} {f : Domain → Domain} (h : f (x.domains[i]'i.2) = d') :
    x.updateDomain i f = { x with domains := x.domains.set i d' } := by
  subst h
  rfl

theorem State.takeTrip_closed {st : DomainState} (hst : (s.dsc.domains[i]'i.2).state = st)
    (hc : st = .waking ∨ st = .on ∨ st = .draining) :
    s.takeTrip i = s.settleDomains (s.dsc.updateDomain i Domain.tripped) [(s.dsc.domains[i]'i.2).tripFlag] := by
  unfold State.takeTrip
  rcases hc with rfl | rfl | rfl <;> rw [hst]

theorem State.takeTrip_open {st : DomainState} (hst : (s.dsc.domains[i]'i.2).state = st)
    (hc : ¬ (st = .waking ∨ st = .on ∨ st = .draining)) : s.takeTrip i = s := by
  unfold State.takeTrip
  rw [hst]
  cases st
  case waking => exact absurd (.inl rfl) hc
  case on => exact absurd (.inr (.inl rfl)) hc
  case draining => exact absurd (.inr (.inr rfl)) hc
  all_goals rfl

/-- Settles O37. -/
theorem faultReportsOpenTheGate : Obligations.FaultReportsOpenTheGate := by
  intro s i active hheld d closed s1 moved
  have htrip : active = true → closed → ∀ d' : Domain, ∀ f : Flag, d.tripped = d' → d.tripFlag = f →
      exec (.faultReport i active) s = .next (moved d' f) := by
    rintro rfl hc d' f rfl rfl
    refine exec_edge (Eq.refl (execFaultReport i true s)) hheld ((if_pos rfl).trans ?_)
    exact State.takeTrip_closed (s := s1) rfl hc
  refine ⟨fun j => tripsAfter_getLsbD _ _ _ _, fun h => ?_, fun ha hc => ⟨fun hle => ?_, fun hle => ?_⟩⟩
  · refine exec_edge (Eq.refl (execFaultReport i active s)) hheld ?_
    cases active with
    | false => rfl
    | true => exact State.takeTrip_open (s := s1) rfl (h.resolve_left nofun)
  · exact htrip ha hc _ _ (Domain.tripped_faulted hle) ((Domain.tripFlag_eq d).trans (if_pos hle))
  · exact htrip ha hc _ _ (Domain.tripped_latched hle) ((Domain.tripFlag_eq d).trans (if_neg (by omega)))

/-- Settles O38. -/
theorem domainTimersExpire : Obligations.DomainTimersExpire := by
  intro s i hheld d demanded usable moved
  have settle : d.state = .waking → ∀ d', (if demanded then d.enterOn else d.runOut) = d' →
      exec (.settleExpiry i) s = moved (.settleExpiry i) d' := fun hst d' he =>
    exec_arrive (Eq.refl (execSettleExpiry i s)) hheld
      ((if_pos hst).trans (congrArg ((s.take _).settleDomains · []) (Dsc.updateDomain_eq he)))
  have backoff : d.state = .faulted → ∀ d', (if demanded && usable then d.wake else d.offCleared) = d' →
      exec (.backoffExpiry i) s = moved (.backoffExpiry i) d' := fun hst d' he =>
    exec_arrive (Eq.refl (execBackoffExpiry i s)) hheld
      ((if_pos hst).trans (congrArg ((s.take _).settleDomains · []) (Dsc.updateDomain_eq he)))
  refine ⟨fun hst => ⟨fun hd => settle hst _ (if_pos hd), fun hd hr => settle hst _ ?_, fun hd hr => settle hst _ ?_⟩,
    fun hst ht => exec_arrive (Eq.refl (execStabilityExpiry i s)) hheld (if_pos ⟨hst, ht⟩),
    fun hst => exec_arrive (Eq.refl (execRunDownExpiry i s)) hheld (if_pos hst),
    fun hst => ⟨fun hd hu => backoff hst _ (if_pos (Bool.and_eq_true_iff.mpr ⟨hd, hu⟩)), fun hno => backoff hst _ ?_⟩,
    fun hst => exec_arrive (Eq.refl (execSettleExpiry i s)) hheld (if_neg hst),
    fun hst => exec_arrive (Eq.refl (execStabilityExpiry i s)) hheld (if_neg ?_),
    fun hst => exec_arrive (Eq.refl (execRunDownExpiry i s)) hheld (if_neg hst),
    fun hst => exec_arrive (Eq.refl (execBackoffExpiry i s)) hheld (if_neg hst)⟩
  · exact (if_neg (ne_true_of_eq_false hd)).trans (Domain.runOut_draining hr)
  · exact (if_neg (ne_true_of_eq_false hd)).trans (Domain.runOut_off hr)
  · exact if_neg (ne_true_of_eq_false (Bool.and_eq_false_iff.mpr hno))
  · rintro ⟨hon, hsome⟩
    refine hst.elim (· hon) fun hnone => ?_
    exact Bool.noConfusion ((congrArg Option.isSome hnone).symm.trans hsome)

/-! #### DOMAIN_CONFIG (R76, R77, R90) -/

/-- Settings that disable a domain: its gate opens at once, and the count is kept (R90). -/
theorem Domain.reconfigured_disabled {demanded usable : Bool} (he : d.enable = false) :
    d.reconfigured true demanded usable =
      if d.state = .off ∨ d.state = .latched then { d with demanded := demanded }
      else { d with state := .off, timer := none, demanded := demanded } := by
  unfold Domain.reconfigured
  rw [if_pos (by rw [he]; rfl)]
  cases hst : d.state <;> rfl

/-- Settings that enable a domain: from OFF it is subject to R82 (R90). -/
theorem Domain.reconfigured_enabled {demanded usable : Bool} (he : d.enable = true) :
    d.reconfigured false demanded usable =
      if d.state = .off then ({ d with demanded := demanded } : Domain).wakeIf demanded usable
      else { d with demanded := demanded } := by
  unfold Domain.reconfigured
  rw [if_neg (by simp), if_pos (by rw [he]; rfl)]
  cases hst : d.state <;> rfl

/-- Settings that leave the enable: the domain acts on its demand (R77). -/
theorem Domain.reconfigured_same {demanded usable was : Bool} (he : was = d.enable) :
    d.reconfigured was demanded usable = d.onDemand demanded usable := by
  unfold Domain.reconfigured
  subst he
  cases d.enable <;> rfl

/-- The five settings stay; only the machine of the domain moves. -/
def OnlyMachine (d d' : Domain) : Prop :=
  d' = { d with state := d'.state, timer := d'.timer, attempts := d'.attempts, demanded := d'.demanded }

theorem onlyMachine_wakeIf (d : Domain) (demanded usable : Bool) : OnlyMachine d (d.wakeIf demanded usable) := by
  unfold Domain.wakeIf
  split <;> rfl

theorem onlyMachine_runOut (d : Domain) : OnlyMachine d d.runOut := by
  unfold Domain.runOut
  split <;> rfl

theorem onlyMachine_onDemand (d : Domain) (demanded usable : Bool) : OnlyMachine d (d.onDemand demanded usable) := by
  unfold Domain.onDemand
  split
  · rfl
  · dsimp only
    split
    · exact onlyMachine_wakeIf { d with demanded := _ } _ _
    · rfl
    · exact onlyMachine_runOut { d with demanded := _ }
    · rfl

/-- However a domain moves by new settings, it keeps them. -/
theorem onlyMachine_reconfigured (d : Domain) (was demanded usable : Bool) :
    OnlyMachine d (d.reconfigured was demanded usable) := by
  unfold Domain.reconfigured
  split
  · split <;> rfl
  · split
    · split
      · exact onlyMachine_wakeIf { d with demanded := demanded } _ _
      all_goals rfl
    · exact onlyMachine_onDemand _ _ _

theorem settle_eq (settle : Byte) :
    max 1 (min settle.toNat 250) = if settle = 0 then 1 else min settle.toNat 250 := by
  by_cases h : settle = 0
  · rw [if_pos h, h]
    rfl
  · rw [if_neg h]
    have hne : settle.toNat ≠ 0 := fun e => h ((bitVec_eq_zero_iff settle).mpr e)
    omega

/-- DOMAIN_CONFIG moves the one domain, by its settings as stored. -/
theorem Dsc.configure_eq (x : Dsc) (i : Fin 12) (enable runEnable : Bool) (draw settle runDown : Nat) :
    x.configure i enable runEnable draw settle runDown = { x with
      domains := x.domains.set i
        (((x.domains[i]'i.2).withSettings enable runEnable draw settle runDown).reconfigured (x.domains[i]'i.2).enable
          (x.holdDemand.getLsbD i.val || (x.runDemand && runEnable)) (enable && x.gateFree i)) } := by
  have hself : (x.updateDomain i fun y => y.withSettings enable runEnable draw settle runDown).domains[i]
      = (x.domains[i]'i.2).withSettings enable runEnable draw settle runDown :=
    (Dsc.updateDomain_domains x i _ i.val i.isLt).trans (if_pos rfl)
  unfold Dsc.configure Dsc.isDemanded Dsc.hasRunDemand Dsc.usable
  dsimp only
  rw [Dsc.updateDomain_eq (congrArg (Domain.reconfigured · _ _ _) hself), hself]
  exact congrArg (fun v => { x with domains := v }) (Vector.set_set ..)

/-- The response of DOMAIN_CONFIG gives the settings as stored. -/
theorem domainSettings_eq {enable runEnable : Byte} (he : enable.toNat ≤ 1) (hr : runEnable.toNat ≤ 1)
    (h : OnlyMachine d d') (hen : d.enable = (enable == 1)) (hrun : d.runEnable = (runEnable == 1)) :
    domainSettings d' = [enable, runEnable] ++ beBytes 2 d'.draw
      ++ [BitVec.ofNat 8 d'.settle, BitVec.ofNat 8 d'.runDown] := by
  unfold domainSettings
  rw [show d'.enable = (enable == 1) from h ▸ hen, show d'.runEnable = (runEnable == 1) from h ▸ hrun, yesNo_of_le he,
    yesNo_of_le hr]
  simp only [byte, List.append_assoc, List.cons_append, List.nil_append]

/-- The settings of DOMAIN_CONFIG with their clamps (R76). -/
theorem Domain.withSettings_eq (d : Domain) (en run : Bool) (draw : BitVec 16) (settle runDown : Byte) :
    d.withSettings en run draw.toNat settle.toNat runDown.toNat = { d with
      enable := en, runEnable := run, draw := min draw.toNat 2000
      settle := if settle = 0 then 1 else min settle.toNat 250, runDown := min runDown.toNat 120 } := by
  rw [← settle_eq]
  rfl

/-- The one domain as DOMAIN_CONFIG leaves it. -/
def Dsc.configured (x : Dsc) (i : Fin 12) (enable runEnable : Byte) (draw : BitVec 16) (settle runDown : Byte) : Domain :=
  ((x.domains[i]'i.2).withSettings (enable == 1) (runEnable == 1) draw.toNat settle.toNat runDown.toNat).reconfigured
    (x.domains[i]'i.2).enable (x.holdDemand.getLsbD i.val || (x.runDemand && runEnable == 1))
    (enable == 1 && x.gateFree i)

/-- DOMAIN_CONFIG with arguments in range moves the one domain, and answers with its settings. -/
theorem exec_domainConfig {domain enable runEnable settle runDown : Byte} {draw : BitVec 16}
    (h : Takes (.domainConfig domain enable runEnable draw settle runDown) s n s1) (hi : domain.toNat = i.val)
    (hen : enable.toNat ≤ 1) (hrun : runEnable.toNat ≤ 1) (hok : ¬ (domain = 0 ∧ enable = 0)) :
    exec (.domainConfig domain enable runEnable draw settle runDown) s = .next
      ((s1.settleDomains { s1.dsc with
        domains := s1.dsc.domains.set i (s1.dsc.configured i enable runEnable draw settle runDown) } []).hand
          (.blockResult n .ok (domainSettings (s1.dsc.configured i enable runEnable draw settle runDown)))) := by
  have hhost : ¬ (i.val = 0 ∧ (enable == 1) = false) := by
    rintro ⟨h0, he⟩
    refine hok ⟨(bitVec_eq_zero_iff _).mpr (hi.trans h0), (byte_eq_zero_or_one hen).resolve_right fun e => ?_⟩
    rw [e] at he
    cases he
  refine exec_ok (by rfl) h ?_
  rw [indexOf_of_eq hi, boolOf_of_le hen, boolOf_of_le hrun]
  refine (if_neg hhost).trans ?_
  rw [Dsc.configure_eq]
  refine congrArg (fun y => (_, Reply.ok (domainSettings y))) ?_
  exact (Vector.getElem_set_self ..).trans rfl

/-- How new settings move a domain: `stored` carries them, and `was` is the enable before (R77, R90). -/
theorem Domain.reconfigured_spec {stored : Domain} {was enable demanded free : Bool} (he : stored.enable = enable) :
    (was = true → enable = false →
      (stored.state = .waking ∨ stored.state = .on ∨ stored.state = .draining ∨ stored.state = .faulted →
        stored.reconfigured was demanded (enable && free)
          = { stored with state := .off, timer := none, demanded := demanded })
      ∧ (stored.state = .off ∨ stored.state = .latched →
        stored.reconfigured was demanded (enable && free) = { stored with demanded := demanded }))
    ∧ (was = false → enable = true →
      (stored.state = .off → demanded = true → free = true →
        stored.reconfigured was demanded (enable && free)
          = { stored with state := .waking, timer := some (ms stored.settle), demanded := true })
      ∧ (stored.state ≠ .off ∨ demanded = false ∨ free = false →
        stored.reconfigured was demanded (enable && free) = { stored with demanded := demanded }))
    ∧ (was = enable →
      actsOnDemand stored (stored.reconfigured was demanded (enable && free)) demanded (enable && free)) := by
  refine ⟨?_, ?_, fun hsame => ?_⟩
  · rintro rfl rfl
    rw [Domain.reconfigured_disabled he]
    refine ⟨fun hst => if_neg ?_, fun hst => if_pos hst⟩
    rcases hst with hst | hst | hst | hst <;> simp [hst]
  · rintro rfl rfl
    rw [Domain.reconfigured_enabled he]
    refine ⟨fun hst hd hf => ?_, fun hno => ?_⟩
    · subst hd hf
      rw [if_pos hst]
      rfl
    · split
      · rename_i hst
        exact Domain.wakeIf_false _ (hno.resolve_left (not_not_intro hst))
      · rfl
  · rw [Domain.reconfigured_same (hsame.trans he.symm)]
    exact actsOnDemand_onDemand _ _ _

/-- Settles O39. -/
theorem domainConfigStoresAndMovesOnce : Obligations.DomainConfigStoresAndMovesOnce := by
  intro domain enable runEnable settle runDown draw s s1 n h cmd
  refine ⟨fun hbad => exec_refused (by rfl) h ?_, fun i hi hen hrun hok =>
    ⟨s1.dsc.configured i enable runEnable draw settle runDown, ?_, ?_⟩⟩
  · rcases hbad with hbad | hbad | hbad | ⟨rfl, rfl⟩
    · rw [indexOf_of_range hbad]
    · rw [boolOf_of_range hbad]
      cases indexOf 12 domain <;> rfl
    · rw [boolOf_of_range hbad]
      cases indexOf 12 domain <;> cases boolOf enable <;> rfl
    · cases boolOf runEnable <;> rfl
  · have hkept : OnlyMachine _ (s1.dsc.configured i enable runEnable draw settle runDown) := onlyMachine_reconfigured ..
    rw [exec_domainConfig h hi hen hrun hok, domainSettings_eq hen hrun hkept rfl rfl]
  · unfold Dsc.configured
    rw [Domain.withSettings_eq]
    intro d stored demanded open'
    obtain ⟨hdis, hena, hsame⟩ := Domain.reconfigured_spec (stored := stored) (was := d.enable) (demanded := demanded)
      (enable := enable == 1) (free := open') rfl
    exact ⟨fun h1 h0 => hdis h1 (by rw [h0]; rfl), fun h1 h0 => hena h1 (by rw [h0]; rfl), hsame⟩

end Sys2Proof.Machine

namespace Sys2Proof.Machine

variable {c : Instr} {s s1 t u : State} {n : Nat} {i : Fin 12} {d d' : Domain} {x : Dsc}

/-! #### CLEAR_FAULT and MASTER (R89, R91) -/

theorem Dsc.clearedFault_eq
    (h : (x.domains[i]'i.2).offCleared.wakeIf (x.isDemanded i) (x.usable i) = d') :
    x.clearedFault i = { x with domains := x.domains.set i d' } := Dsc.updateDomain_eq h

/-- CLEAR_FAULT on FAULTED or LATCHED: OFF with count 0, then WAKING where R82 has it so; the result gives that state. -/
theorem exec_clearFault {domain : Byte} (h : Takes (.clearFault domain) s n s1) (hi : domain.toNat = i.val)
    (hst : (s1.dsc.domains[i]'i.2).state = .faulted ∨ (s1.dsc.domains[i]'i.2).state = .latched)
    (hd : (s1.dsc.domains[i]'i.2).offCleared.wakeIf (s1.dsc.isDemanded i) (s1.dsc.usable i) = d') :
    exec (.clearFault domain) s = .next ((s1.settleDomains { s1.dsc with
      domains := s1.dsc.domains.set i d' } []).hand (.blockResult n .ok (byte d'.state.number))) := by
  have hself : (s1.dsc.domains.set i d')[i] = d' := Vector.getElem_set_self ..
  refine exec_ok (by rfl) h ?_
  rw [indexOf_of_eq hi]
  dsimp only
  rw [Dsc.clearedFault_eq hd]
  rcases hst with hst | hst <;> rw [hst] <;> dsimp only <;> rw [hself]

theorem exec_clearFault_mode {domain : Byte} (h : Takes (.clearFault domain) s n s1) (hi : domain.toNat = i.val)
    (h1 : (s1.dsc.domains[i]'i.2).state ≠ .faulted) (h2 : (s1.dsc.domains[i]'i.2).state ≠ .latched) :
    exec (.clearFault domain) s = .next (s1.hand (.blockResult n .mode [])) := by
  refine exec_refused (by rfl) h ?_
  rw [indexOf_of_eq hi]
  dsimp only
  cases hst : (s1.dsc.domains[i]'i.2).state
  case faulted => exact absurd hst h1
  case latched => exact absurd hst h2
  all_goals rfl

/-- The setting given, stored already. -/
theorem exec_master_kept {setting : Byte} (h : Takes (.master setting) s n s1) (hle : setting.toNat ≤ 1)
    (he : s1.dsc.masterOpen = (setting == 1)) :
    exec (.master setting) s = .next (s1.hand (.blockResult n .ok [setting])) := by
  refine exec_ok (by rfl) h ?_
  rw [boolOf_of_le hle]
  exact (if_pos he.symm).trans (congrArg (fun b => (s1, Reply.ok b)) (yesNo_of_le hle))

theorem exec_master_moved {setting : Byte} (h : Takes (.master setting) s n s1) (hle : setting.toNat ≤ 1)
    (he : s1.dsc.masterOpen ≠ (setting == 1)) :
    exec (.master setting) s = .next ((s1.settleDomains
      (if setting == 1 then s1.dsc.openMaster else s1.dsc.closeMaster) []).hand (.blockResult n .ok [setting])) := by
  refine exec_ok (by rfl) h ?_
  rw [boolOf_of_le hle]
  exact (if_neg he.symm).trans (congrArg (fun b => (_, Reply.ok b)) (yesNo_of_le hle))

/-- The master gate closed: D1 to D11 leave WAKING, ON and DRAINING with the count kept, and nothing else moves (R91). -/
theorem Dsc.closeMaster_spec (x : Dsc) (i : Fin 12) :
    (i.val = 0 → x.closeMaster.domains[i] = x.domains[i]'i.2)
    ∧ (i.val ≠ 0 → ((x.domains[i]'i.2).state = .waking ∨ (x.domains[i]'i.2).state = .on ∨ (x.domains[i]'i.2).state = .draining) →
      x.closeMaster.domains[i] = { x.domains[i]'i.2 with state := .off, timer := none })
    ∧ ((x.domains[i]'i.2).state = .off ∨ (x.domains[i]'i.2).state = .faulted ∨ (x.domains[i]'i.2).state = .latched →
      x.closeMaster.domains[i] = x.domains[i]'i.2) := by
  unfold Dsc.closeMaster
  simp only [Fin.getElem_fin, Dsc.mapDomains_domains]
  generalize x.domains[i.val] = y
  refine ⟨fun h0 => ?_, fun h0 hst => ?_, fun hst => ?_⟩
  · simp only [if_pos h0]
    cases y.state <;> rfl
  · rcases hst with hst | hst | hst <;> rw [hst] <;> exact if_neg h0
  · rcases hst with hst | hst | hst <;> rw [hst]

/-- The master gate opened: the demanded and enabled of D1 to D11 in OFF enter WAKING, and nothing else moves (R91). -/
theorem Dsc.openMaster_spec (x : Dsc) (i : Fin 12) :
    (i.val = 0 → x.openMaster.domains[i] = x.domains[i]'i.2)
    ∧ (i.val ≠ 0 → (x.domains[i]'i.2).state = .off → (x.isDemanded i && (x.domains[i]'i.2).enable) = true →
      x.openMaster.domains[i] = { x.domains[i]'i.2 with state := .waking, timer := some (ms (x.domains[i]'i.2).settle) })
    ∧ ((x.domains[i]'i.2).state ≠ .off ∨ (x.isDemanded i && (x.domains[i]'i.2).enable) = false →
      x.openMaster.domains[i] = x.domains[i]'i.2) := by
  have husable : Dsc.usable { x with masterOpen := true } i = (x.domains[i]'i.2).enable :=
    (congrArg _ (Bool.or_true _)).trans (Bool.and_true _)
  have hdemanded : Dsc.isDemanded { x with masterOpen := true } i = x.isDemanded i := rfl
  unfold Dsc.openMaster
  simp only [Fin.getElem_fin, Dsc.mapDomains_domains, husable, hdemanded]
  generalize x.domains[i.val] = y
  refine ⟨fun h0 => ?_, fun h0 hst hw => ?_, fun hno => ?_⟩
  · simp only [if_pos h0]
    cases y.state <;> rfl
  · rw [hst]
    exact (if_neg h0).trans (Domain.wakeIf_true _ (Bool.and_eq_true_iff.mp hw).1 (Bool.and_eq_true_iff.mp hw).2)
  · cases hst : y.state
    case off =>
      have hw := Bool.and_eq_false_iff.mp (hno.resolve_left (not_not_intro hst))
      dsimp only
      rw [Domain.wakeIf_false _ hw, ite_self]
    all_goals rfl

/-- Settles O40. -/
theorem clearFaultAndMaster : Obligations.ClearFaultAndMaster := by
  refine ⟨fun domain s s1 n h => ⟨fun hbad => exec_refused (by rfl) h (by rw [indexOf_of_range hbad]), ?_⟩,
    fun setting s s1 n h => ⟨fun hbad => exec_refused (by rfl) h (by rw [boolOf_of_range hbad]), exec_master_kept h,
      fun hle hne => ⟨_, exec_master_moved h hle hne, ?_, fun i => ?_⟩⟩⟩
  · intro i hi d wakes moved
    refine ⟨fun hst => ⟨fun hw => ?_, fun hw => ?_⟩, exec_clearFault_mode h hi⟩
    · obtain ⟨hd, hu⟩ := Bool.and_eq_true_iff.mp hw
      exact exec_clearFault h hi hst (Domain.wakeIf_true _ hd hu)
    · exact exec_clearFault h hi hst (Domain.wakeIf_false _ (Bool.and_eq_false_iff.mp hw))
  · rcases byte_eq_zero_or_one hle with rfl | rfl <;> rfl
  · rcases byte_eq_zero_or_one hle with rfl | rfl
    · obtain ⟨hhost, hmove, hkeep⟩ := s1.dsc.closeMaster_spec i
      exact ⟨hhost, fun h0 _ => ⟨hmove h0, hkeep⟩, fun _ h1 => by cases h1⟩
    · obtain ⟨hhost, hmove, hkeep⟩ := s1.dsc.openMaster_spec i
      exact ⟨hhost, (fun _ h1 => by cases h1), fun h0 _ => ⟨hmove h0, hkeep⟩⟩

end Sys2Proof.Machine

/-! ### Shares and attribution (R66 to R68) -/

namespace Sys2Proof.Machine

variable {c : Instr} {s t u : State} {i : Fin 48} {d : Fin 12} {h : Hold}

/-! #### The shares of a second (R66) -/

/-- The slots whose ACTIVE hold covers a domain, in ascending order. -/
theorem Htm.sharers_eq (t : Htm) (d : Fin 12) :
    t.sharers d = (List.finRange 48).filter fun i => (t.slots[i]'i.2).activeMask.getLsbD d.val := rfl

theorem State.shareOf_of_sharer (hc : (s.dsc.domains[d]'d.2).state.gateClosed = true) (hi : i ∈ s.htm.sharers d) :
    s.shareOf d i = (s.dsc.domains[d]'d.2).intervalDraw / (s.htm.sharers d).length
      + if (s.htm.sharers d).head? = some i then (s.dsc.domains[d]'d.2).intervalDraw % (s.htm.sharers d).length else 0 :=
  if_pos (Bool.and_eq_true_iff.mpr ⟨hc, List.contains_iff_mem.mpr hi⟩)

theorem State.shareOf_of_other (h : i ∉ s.htm.sharers d ∨ (s.dsc.domains[d]'d.2).state.gateClosed = false) :
    s.shareOf d i = 0 := by
  refine if_neg fun hb => ?_
  obtain ⟨hc, hi⟩ := Bool.and_eq_true_iff.mp hb
  exact h.elim (· (List.contains_iff_mem.mp hi)) fun hno => Bool.noConfusion (hno.symm.trans hc)

/-- A quantity dealt out equally, with the remainder to the head of a list without repetition, is dealt out whole. -/
theorem sum_shares {α : Type} [DecidableEq α] {l : List α} (hl : l ≠ []) (hnd : l.Nodup) (x : Nat) :
    (l.map fun i => x / l.length + if l.head? = some i then x % l.length else 0).sum = x := by
  obtain ⟨a, rest, rfl⟩ := List.exists_cons_of_ne_nil hl
  have hrest : ∀ i ∈ rest, ¬ a = i := fun i hi e => (List.nodup_cons.mp hnd).1 (e ▸ hi)
  generalize hn : (a :: rest).length = n
  have hmap : (rest.map fun i => x / n + if (a :: rest).head? = some i then x % n else 0)
      = rest.map fun _ => x / n :=
    List.map_congr_left fun i hi => by simp [hrest i hi]
  rw [List.map_cons, List.sum_cons, hmap, List.map_const', List.sum_replicate, List.head?_cons, if_pos rfl]
  have hdiv := Nat.div_add_mod x n
  rw [← hn, List.length_cons, smul_eq_mul]
  rw [← hn, List.length_cons, Nat.add_mul, Nat.one_mul] at hdiv
  omega

/-- Only those that satisfy `p` add to a sum in which the others are 0. -/
theorem sum_map_filter {α : Type} {p : α → Bool} {f : α → Nat} (hf : ∀ i, p i = false → f i = 0) (l : List α) :
    ((l.filter p).map f).sum = (l.map f).sum := by
  induction l with
  | nil => rfl
  | cons i l ih =>
    rw [List.map_cons, List.sum_cons, ← ih]
    cases hp : p i with
    | true => rw [List.filter_cons_of_pos hp, List.map_cons, List.sum_cons]
    | false => rw [List.filter_cons_of_neg (ne_true_of_eq_false hp), hf i hp, Nat.zero_add]

/-- What the sharers of a drawing domain receive is its draw. -/
theorem State.sum_shareOf (hc : (s.dsc.domains[d]'d.2).state.gateClosed = true) (hne : s.htm.sharers d ≠ []) :
    ((List.finRange 48).map fun i => s.shareOf d i).sum = (s.dsc.domains[d]'d.2).intervalDraw := by
  have hzero : ∀ i : Fin 48, (s.htm.slots[i]'i.2).activeMask.getLsbD d.val = false → s.shareOf d i = 0 := fun i hi =>
    State.shareOf_of_other (.inl fun hm => ne_true_of_eq_false hi (List.mem_filter.mp hm).2)
  have hnd : (s.htm.sharers d).Nodup := (List.nodup_finRange 48).filter _
  rw [← sum_map_filter hzero, ← Htm.sharers_eq, List.map_congr_left fun i hi => State.shareOf_of_sharer hc hi]
  exact sum_shares hne hnd _

/-- Settles O34. -/
theorem sharesAddUpToTheDraw : Obligations.SharesAddUpToTheDraw := by
  intro s d sharers draw
  exact ⟨fun hc hne => ⟨State.sum_shareOf hc hne, fun i hi => State.shareOf_of_sharer hc hi⟩,
    fun i h => State.shareOf_of_other h, rfl⟩

end Sys2Proof.Machine

namespace Sys2Proof.Machine

variable {c : Instr} {s t u : State} {i : Fin 48} {d : Fin 12} {h : Hold}

/-! #### An attribution (R67, R68) -/

/-- A slot whose hold, if it has one, is charged `x` more. -/
def chargedSlot (sl : Slot) (x : Nat) : Slot :=
  { sl with hold := sl.hold.map fun h => { h with charge := satAdd h.charge x } }

/-- A share is added to the hold its handle names, and a stale one is dropped (R13, R67). -/
theorem addShare_slot (t : Htm) (e : Handle × Nat) (i : Fin 48) :
    (t.addShare e).slots[i] =
      if e.1 = (t.slots[i]'i.2).handle i then chargedSlot (t.slots[i]'i.2) e.2 else t.slots[i]'i.2 := by
  unfold Htm.addShare
  cases hr : t.resolve e.1 with
  | error st =>
    dsimp only
    split
    · rename_i he
      cases hi : (t.slots[i]'i.2).hold with
      | none =>
        rw [chargedSlot, hi]
        exact congrArg (Slot.mk _) hi
      | some h =>
        have hok := Htm.resolve_eq_ok.mpr ⟨congrArg (fun x : Handle => x.slot.val) he, hi, congrArg Handle.gen he⟩
        cases hr.symm.trans hok
    · rfl
  | ok x =>
    obtain ⟨j, h⟩ := x
    obtain ⟨hslot, hj, hgen⟩ := Htm.resolve_eq_ok.mp hr
    dsimp only
    rw [Htm.putHold_slot]
    by_cases hji : j = i
    · subst hji
      have he : e.1 = (t.slots[j]'j.2).handle j := by
        rw [show e.1 = ⟨e.1.slot, e.1.gen⟩ from rfl, hgen]
        exact congrArg (Handle.mk · _) (Fin.ext hslot)
      rw [if_pos rfl, if_pos he, chargedSlot, hj]
      rfl
    · have he : e.1 ≠ (t.slots[i]'i.2).handle i := fun he =>
        hji (Fin.ext (hslot.symm.trans (congrArg (fun x : Handle => x.slot.val) he)))
      rw [if_neg hji, if_neg he]

theorem chargedSlot_handle (sl : Slot) (x : Nat) (i : Fin 48) : (chargedSlot sl x).handle i = sl.handle i := rfl

theorem foldl_addShare_slot_of_stale {shares : List (Handle × Nat)} {t : Htm}
    (h : ∀ e ∈ shares, e.1 ≠ (t.slots[i]'i.2).handle i) :
    (shares.foldl Htm.addShare t).slots[i] = t.slots[i]'i.2 := by
  induction shares generalizing t with
  | nil => rfl
  | cons e shares ih =>
    have hself : (t.addShare e).slots[i] = t.slots[i]'i.2 :=
      (addShare_slot t e i).trans (if_neg (h e List.mem_cons_self))
    rw [List.foldl_cons, ih (fun e' he' => hself.symm ▸ h e' (List.mem_cons_of_mem _ he')), hself]

/-- Where no slot is named twice, each hold is charged the one share that its handle names. -/
theorem foldl_addShare_slot {shares : List (Handle × Nat)} (hnd : (shares.map fun e => e.1.slot).Nodup) (t : Htm)
    (i : Fin 48) :
    (shares.foldl Htm.addShare t).slots[i] = (shares.find? fun e => e.1 = (t.slots[i]'i.2).handle i).elim
      (t.slots[i]'i.2) fun e => chargedSlot (t.slots[i]'i.2) e.2 := by
  induction shares generalizing t with
  | nil => rfl
  | cons e shares ih =>
    rw [List.map_cons, List.nodup_cons] at hnd
    rw [List.foldl_cons]
    have hself := addShare_slot t e i
    by_cases he : e.1 = (t.slots[i]'i.2).handle i
    · rw [if_pos he] at hself
      rw [List.find?_cons_of_pos (p := fun e : Handle × Nat => decide (e.1 = (t.slots[i]'i.2).handle i)) (decide_eq_true he), foldl_addShare_slot_of_stale, hself]
      · rfl
      · intro e' he' hsame
        rw [hself, chargedSlot_handle, ← he] at hsame
        exact hnd.1 (List.mem_map.mpr ⟨e', he', congrArg Handle.slot hsame⟩)
    · rw [if_neg he] at hself
      rw [List.find?_cons_of_neg (p := fun e : Handle × Nat => decide (e.1 = (t.slots[i]'i.2).handle i))
        (fun hp => he (of_decide_eq_true hp)), ih hnd.2, hself]

theorem Htm.countWhere_eq_zero {t : Htm} {p : Hold → Bool} :
    t.countWhere p = 0 ↔ ∀ i : Fin 48, ∀ h, (t.slots[i]'i.2).hold = some h → p h = false := by
  simp only [Htm.countWhere, List.countP_eq_zero, mem_allSlots, forall_const]
  refine forall_congr' fun i => ?_
  cases (t.slots[i]'i.2).hold <;> simp

theorem exec_attribution (hheld : s.held = false) (shares : List (Handle × Nat)) :
    exec (.attribution shares) s = .next ((s.take (.attribution shares)).settleTable
      ((shares.foldl Htm.addShare s.htm).retireWhere capReached) []
      (if (shares.foldl Htm.addShare s.htm).countWhere capReached = 0 then [] else [.holdCapped])) :=
  exec_arrive (Eq.refl (execAttribution shares s)) hheld rfl

theorem capReached_iff : capReached h = true ↔ ∃ c, h.cap = some c ∧ c ≤ h.charge := by
  unfold capReached
  cases h.cap <;> simp

/-- A slot loses its hold exactly where the hold satisfies `p`. -/
theorem retiredSlot_lost_iff (p : Hold → Bool) (sl : Slot) :
    (sl.hold.isSome && (retiredSlot p sl).hold.isNone) = true ↔ ∃ h, sl.hold = some h ∧ p h = true := by
  obtain ⟨gen, hold⟩ := sl
  cases hold with
  | none => simp
  | some h => cases hp : p h <;> simp [retiredSlot, hp]

/-- Whether holds are retired, seen by the slots that lose their hold. -/
theorem countWhere_eq_zero_iff_none_lost {t v : Htm}
    (hv : ∀ i : Fin 48, (v.slots[i]'i.2).hold.isSome = (t.slots[i]'i.2).hold.isSome) {p : Hold → Bool} :
    v.countWhere p = 0 ↔ ¬ ((List.finRange 48).any fun i =>
      (t.slots[i]'i.2).hold.isSome && ((v.retireWhere p).slots[i]'i.2).hold.isNone) = true := by
  simp only [Htm.countWhere_eq_zero, List.any_eq_true, List.mem_finRange, true_and, ← hv, Htm.retireWhere_slot,
    retiredSlot_lost_iff, not_exists, not_and, Bool.not_eq_true]

/-- A slot with a hold, charged with a share or not. -/
theorem elim_chargedSlot {sl : Slot} (hi : sl.hold = some h) (share : Option (Handle × Nat)) :
    (share.elim sl fun e => chargedSlot sl e.2)
      = { sl with hold := some { h with charge := share.elim h.charge fun e => satAdd h.charge e.2 } } := by
  obtain ⟨gen, hold⟩ := sl
  cases hi
  cases share <;> rfl

theorem elim_chargedSlot_free {sl : Slot} (hi : sl.hold = none) (share : Option (Handle × Nat)) :
    (share.elim sl fun e => chargedSlot sl e.2) = sl := by
  obtain ⟨gen, hold⟩ := sl
  cases hi
  cases share <;> rfl

theorem elim_chargedSlot_isSome (sl : Slot) (share : Option (Handle × Nat)) :
    (share.elim sl fun e => chargedSlot sl e.2).hold.isSome = sl.hold.isSome := by
  cases share with
  | none => rfl
  | some e => exact Option.isSome_map

/-- The report and the flag of an attribution. -/
theorem attributionHanded_eq {quiet lost : Prop} [Decidable quiet] [Decidable lost] (h : quiet ↔ ¬ lost) :
    (if (if quiet then [] else [Flag.holdCapped]) = [] then []
      else [Instr.flagSetting (flagsOf (if quiet then [] else [Flag.holdCapped]))])
      = if lost then [.flagSetting 0x0020] else [] := by
  by_cases hl : lost
  · rw [if_neg (fun hq => h.mp hq hl), if_pos hl]
    rfl
  · rw [if_pos (h.mpr hl), if_neg hl]
    rfl

/-- Settles O35. -/
theorem attributionAddsSharesAndRetiresCappedHolds : Obligations.AttributionAddsSharesAndRetiresCappedHolds := by
  intro shares s hheld hnd
  have hcharged := foldl_addShare_slot hnd s.htm
  have hlimits : SameLimits s.htm (shares.foldl Htm.addShare s.htm) :=
    sameLimits_foldl (table := id) sameLimits_addShare shares s.htm
  have hexec := exec_attribution hheld shares
  generalize shares.foldl Htm.addShare s.htm = v at hcharged hlimits hexec
  refine ⟨_, hexec, onlyTable_settleTable (s.take (.attribution shares)) .., ?_, fun i hi => ?_, fun i h hi => ?_, ?_⟩
  all_goals rw [State.settleTable_eq]
  · exact hlimits.trans (sameLimits_retireWhere _ _)
  · refine (Htm.retireWhere_slot v _ i).trans ?_
    rw [hcharged, elim_chargedSlot_free hi, retiredSlot_none _ hi]
  · intro charge
    have hcharge : charge = (shares.find? fun e => e.1 = (s.htm.slots[i]'i.2).handle i).elim h.charge
        fun e => satAdd h.charge e.2 := by
      unfold charge Slot.handle
      generalize shares.find? (fun e => decide (e.1 = ⟨⟨i.val, by omega⟩, (s.htm.slots[i]'i.2).gen⟩)) = share
      cases share <;> rfl
    clear_value charge
    have hslot := (hcharged i).trans (elim_chargedSlot hi _)
    rw [← hcharge] at hslot
    have hretired := Htm.retireWhere_slot v capReached i
    rw [hslot, retiredSlot_some _ rfl] at hretired
    refine ⟨fun c hc hle => hretired.trans (if_pos
      ((capReached_iff (h := { h with charge := charge })).mpr ⟨c, hc, hle⟩)),
      fun hno => hretired.trans (if_neg fun hcap => ?_)⟩
    obtain ⟨c, hc, hle⟩ := capReached_iff.mp hcap
    exact (hno c hc).not_ge hle
  · have hlost := countWhere_eq_zero_iff_none_lost (t := s.htm) (v := v) (p := capReached) fun i => by
      rw [hcharged]
      exact elim_chargedSlot_isSome _ _
    dsimp only
    rw [attributionHanded_eq hlost]
    simp only [and_true]
    rfl

end Sys2Proof.Machine

/-! ### SOURCE_CONFIG (R120, R124) -/

namespace Sys2Proof.Machine

variable {s s1 : State} {n : Nat} {a : SourceArgs} {w : ClockArgs} {x y : Source} {i k : Fin 16} {f : Tier} {b : Byte}

/-! #### The arguments of a window and of a source -/

def windowInRange (w : ClockArgs) : Prop :=
  w.enable.toNat ≤ 1 ∧ w.area.toNat ≤ 1 ∧ w.start.toNat ≤ 1439 ∧ w.stop.toNat ≤ 1439

/-- The arguments of SOURCE_CONFIG that are checked for every source: all but the source and the polarity. -/
def settingsInRange (a : SourceArgs) : Prop :=
  a.armOnce.toNat ≤ 1 ∧ a.armAlways.toNat ≤ 1 ∧ a.logic.toNat ≤ 1 ∧ a.template.toNat ≤ 15 ∧ windowInRange a.winA
    ∧ windowInRange a.winB ∧ a.tierEnable.toNat ≤ 1 ∧ a.tierArea.toNat ≤ 1 ∧ a.minTier.toNat ≤ 3

theorem le_of_boolOf {v : Bool} (h : boolOf b = some v) : b.toNat ≤ 1 :=
  Nat.le_of_not_lt fun hlt => Option.some_ne_none v (h.symm.trans (boolOf_of_range hlt))

theorem indexOf_toNat (h : indexOf 16 b = some k) : b.toNat = k.val := by
  obtain ⟨_, hk⟩ := Option.dite_none_right_eq_some.mp h
  exact congrArg Fin.val (Option.some.inj hk)

theorem le_of_indexOf (h : indexOf 16 b = some k) : b.toNat ≤ 15 :=
  indexOf_toNat h ▸ Nat.le_of_lt_succ k.isLt

theorem le_of_tierOfNumber (h : tierOfNumber b = some f) : b.toNat ≤ 3 :=
  Nat.le_of_not_lt fun hlt => Option.some_ne_none f (h.symm.trans (tierOfNumber_of_range hlt))

theorem windowInRange_of_clockWindowOf {v : ClockWindow} (h : clockWindowOf w = some v) : windowInRange w := by
  unfold clockWindowOf at h
  split at h
  case h_1 he ha =>
    obtain ⟨hm, -⟩ := Option.ite_none_right_eq_some.mp h
    exact ⟨le_of_boolOf he, le_of_boolOf ha, hm⟩
  case h_2 => exact absurd h (Option.some_ne_none v).symm

theorem le_of_tierWindowOf {e r m : Byte} {v : TierWindow} (h : tierWindowOf e r m = some v) :
    e.toNat ≤ 1 ∧ r.toNat ≤ 1 ∧ m.toNat ≤ 3 := by
  unfold tierWindowOf at h
  split at h
  case h_1 he hr hm => exact ⟨le_of_boolOf he, le_of_boolOf hr, le_of_tierOfNumber hm⟩
  case h_2 => exact absurd h (Option.some_ne_none v).symm

theorem settingsInRange_of_configured (h : x.configured a = some y) : settingsInRange a := by
  unfold Source.configured at h
  split at h
  case h_1 ho hal ht hl hwa hwb hwt =>
    exact ⟨le_of_boolOf ho, le_of_boolOf hal, le_of_boolOf hl, le_of_indexOf ht, windowInRange_of_clockWindowOf hwa,
      windowInRange_of_clockWindowOf hwb, le_of_tierWindowOf hwt⟩
  case h_2 => exact absurd h (Option.some_ne_none y).symm

/-! #### What is stored -/

def storedWindow (w : ClockArgs) : ClockWindow :=
  { enable := w.enable == 1, outside := w.area == 1, start := w.start.toNat, stop := w.stop.toNat,
    days := w.days.setWidth 7 }

/-- A source with the settings of the arguments, template and minimum tier already read as k and f. -/
def Source.stored (x : Source) (a : SourceArgs) (k : Fin 16) (f : Tier) : Source :=
  { x with
    armOnce := a.armOnce == 1, armAlways := a.armAlways == 1, logicAnd := a.logic == 1, template := k
    winA := storedWindow a.winA, winB := storedWindow a.winB
    winT := { enable := a.tierEnable == 1, outside := a.tierArea == 1, minTier := f } }

theorem clockWindowOf_of_windowInRange (h : windowInRange w) : clockWindowOf w = some (storedWindow w) := by
  obtain ⟨he, ha, hm⟩ := h
  unfold clockWindowOf
  rw [boolOf_of_le he, boolOf_of_le ha]
  exact (if_pos hm).trans (congrArg (fun d => some { storedWindow w with days := d }) (BitVec.eq_of_toNat_eq (by simp)))

theorem exists_rank_eq (h : b.toNat ≤ 3) : ∃ f : Tier, b.toNat = f.rank := by
  interval_cases hb : b.toNat
  · exact ⟨.exhausted, rfl⟩
  · exact ⟨.red, rfl⟩
  · exact ⟨.amber, rfl⟩
  · exact ⟨.green, rfl⟩

theorem Source.configured_of_settingsInRange (h : settingsInRange a) (hk : a.template.toNat = k.val) (hf : a.minTier.toNat = f.rank) :
    x.configured a = some (x.stored a k f) := by
  obtain ⟨ho, hal, hl, -, hwa, hwb, hte, hta, -⟩ := h
  unfold Source.configured tierWindowOf
  rw [boolOf_of_le ho, boolOf_of_le hal, boolOf_of_le hl, indexOf_of_eq hk, clockWindowOf_of_windowInRange hwa,
    clockWindowOf_of_windowInRange hwb, boolOf_of_le hte, boolOf_of_le hta, tierOfNumber_of_rank hf]
  rfl

/-! #### The payload -/

theorem byte_setWidth_days (d : Byte) : byte (d.setWidth 7).toNat = [d &&& 0x7F] := by
  refine congrArg (fun v => [v]) (BitVec.eq_of_toNat_eq ?_)
  rw [BitVec.toNat_ofNat, BitVec.toNat_setWidth, BitVec.toNat_and, Nat.mod_eq_of_lt (by omega)]
  exact (Nat.and_two_pow_sub_one_eq_mod d.toNat 7).symm

theorem windowBytes_storedWindow (h : windowInRange w) : windowBytes (storedWindow w) =
    [w.enable, w.area] ++ beBytes 2 w.start.toNat ++ beBytes 2 w.stop.toNat ++ [w.days &&& 0x7F] := by
  obtain ⟨he, ha, -⟩ := h
  unfold windowBytes
  dsimp only [storedWindow]
  rw [yesNo_of_le he, yesNo_of_le ha, byte_setWidth_days]
  rfl

theorem sourceBytes_stored (h : settingsInRange a) (hk : a.template.toNat = k.val) (hf : a.minTier.toNat = f.rank) :
    sourceBytes (x.stored a k f) =
      [a.armOnce, a.armAlways, a.template, a.logic] ++ windowBytes (storedWindow a.winA) ++ windowBytes (storedWindow a.winB)
        ++ [a.tierEnable, a.tierArea, a.minTier] := by
  obtain ⟨ho, hal, hl, -, -, -, hte, hta, -⟩ := h
  unfold sourceBytes
  dsimp only [Source.stored]
  rw [yesNo_of_le ho, yesNo_of_le hal, yesNo_of_le hl, yesNo_of_le hte, yesNo_of_le hta, byte, byte, ofNat_of_eq hk,
    ofNat_of_eq hf]
  simp only [List.append_assoc, List.cons_append, List.nil_append]

/-! #### The pin of a source -/

theorem Pin.configured_same {p : Pin} {pol : Bool} (h : pol = p.activeHigh) (d : Nat) (high : Bool) :
    p.configured pol d high = { p with debounce := min d 15 } := by
  subst h
  exact if_pos rfl

theorem Pin.configured_changed {p : Pin} {pol : Bool} (h : pol ≠ p.activeHigh) (d : Nat) (high : Bool) :
    p.configured pol d high =
      { activeHigh := pol, debounce := min d 15, state := if high == pol then .held else .ready, timer := none } :=
  if_neg h

theorem pinSettingBytes_configured {p : Pin} {d : Nat} {high : Bool} (h : b.toNat ≤ 1) :
    pinSettingBytes (some (p.configured (b == 1) d high)) = [b, BitVec.ofNat 8 (min d 15)] := by
  unfold Pin.configured
  dsimp only
  split
  all_goals exact congrArg (· ++ byte (min d 15)) (yesNo_of_le h)

/-! #### The command -/

theorem sourcePin_pinSource (p : Fin 8) : sourcePin (pinSource p) = some p := dif_pos p.isLt

theorem sourcePin_of_filter (h : 7 < i.val) : sourcePin i = none := dif_neg (by omega)

theorem sourceBytes_after {l : List Byte} (h : settingsInRange a) (hk : a.template.toNat = k.val)
    (hf : a.minTier.toNat = f.rank) : l ++ sourceBytes (x.stored a k f) =
      l ++ [a.armOnce, a.armAlways, a.template, a.logic]
        ++ ([a.winA.enable, a.winA.area] ++ beBytes 2 a.winA.start.toNat ++ beBytes 2 a.winA.stop.toNat
          ++ [a.winA.days &&& 0x7F])
        ++ ([a.winB.enable, a.winB.area] ++ beBytes 2 a.winB.start.toNat ++ beBytes 2 a.winB.stop.toNat
          ++ [a.winB.days &&& 0x7F])
        ++ [a.tierEnable, a.tierArea, a.minTier] := by
  have ⟨_, _, _, _, hwa, hwb, _⟩ := h
  rw [sourceBytes_stored h hk hf, windowBytes_storedWindow hwa, windowBytes_storedWindow hwb]
  simp only [List.append_assoc]

theorem exec_sourceConfig_bad (h : Takes (.sourceConfig a) s n s1)
    (hbad : a.source.toNat ≤ 15 → settingsInRange a → ¬ (a.source.toNat ≤ 7 → a.polarity.toNat ≤ 1)) :
    exec (.sourceConfig a) s = .next (s1.hand (.blockResult n .arg [])) := by
  refine exec_refused (by rfl) h ?_
  cases hi : indexOf 16 a.source with
  | none => rfl
  | some i =>
    dsimp only
    cases hx : (s1.wsu.sources[i]'i.2).configured a with
    | none => rfl
    | some x =>
      obtain ⟨hpin, hpol⟩ := Classical.not_imp.mp (hbad (le_of_indexOf hi) (settingsInRange_of_configured hx))
      have hlt : i.val < 8 := indexOf_toNat hi ▸ Nat.lt_succ_of_le hpin
      simp only [sourcePin, dif_pos hlt, boolOf_of_range (Nat.lt_of_not_le hpol)]

theorem exec_sourceConfig_filter (h : Takes (.sourceConfig a) s n s1) (hi : a.source.toNat = i.val) (hge : 7 < i.val)
    (hx : (s1.wsu.sources[i]'i.2).configured a = some x) :
    exec (.sourceConfig a) s =
      .next ((s1.withSource i x).hand (.blockResult n .ok ([0, 0] ++ sourceBytes x))) := by
  refine exec_ok (by rfl) h ?_
  rw [indexOf_of_eq hi]
  simp only [hx, sourcePin_of_filter hge]
  rfl

theorem exec_sourceConfig_pin {p : Fin 8} (h : Takes (.sourceConfig a) s n s1)
    (hi : a.source.toNat = (pinSource p).val) (hpol : a.polarity.toNat ≤ 1)
    (hx : (s1.wsu.sources[pinSource p]'(pinSource p).2).configured a = some x) :
    exec (.sourceConfig a) s =
      .next (((s1.withSource (pinSource p) x).withPin p ((s1.wsu.pins[p]'p.2).configured (a.polarity == 1)
        a.debounce.toNat (s1.inputs.wake.getLsbD p.val))).hand
        (.blockResult n .ok ([a.polarity, BitVec.ofNat 8 (min a.debounce.toNat 15)] ++ sourceBytes x))) := by
  refine exec_ok (by rfl) h ?_
  rw [indexOf_of_eq hi]
  simp only [hx, sourcePin_pinSource, boolOf_of_le hpol]
  exact congrArg (fun l => (_, Reply.ok (l ++ _))) (pinSettingBytes_configured hpol)

theorem Source.stored_spec (x : Source) (hk : a.template.toNat = k.val) (hf : a.minTier.toNat = f.rank) :
    let y := x.stored a k f
    y.armOnce = (a.armOnce == 1) ∧ y.armAlways = (a.armAlways == 1) ∧ y.logicAnd = (a.logic == 1)
      ∧ y.template.val = a.template.toNat ∧ y.last = x.last ∧ y.winA = storedWindow a.winA
      ∧ y.winB = storedWindow a.winB ∧ y.winT.enable = (a.tierEnable == 1) ∧ y.winT.outside = (a.tierArea == 1)
      ∧ y.winT.minTier.rank = a.minTier.toNat :=
  ⟨rfl, rfl, rfl, hk.symm, rfl, rfl, rfl, rfl, rfl, hf.symm⟩

/-- Settles O50. -/
theorem sourceConfigStoresOneSource : Obligations.SourceConfigStoresOneSource := by
  intro a s s1 n h window sent ranges
  refine ⟨fun hbad => exec_sourceConfig_bad h fun hsource hset hpol => ?_, fun hranges i hi => ?_⟩
  · obtain ⟨ho, hal, hl, ht, hwa, hwb, hte, hta, hm⟩ := hset
    exact hbad ⟨hsource, ho, hal, hl, ht, hwa, hwb, hte, hta, hm, hpol⟩
  · obtain ⟨hsource, ho, hal, hl, ht, hwa, hwb, hte, hta, hm, hpol⟩ := hranges
    have hset : settingsInRange a := ⟨ho, hal, hl, ht, hwa, hwb, hte, hta, hm⟩
    obtain ⟨k, hk⟩ : ∃ k : Fin 16, a.template.toNat = k.val := ⟨⟨_, Nat.lt_succ_of_le ht⟩, rfl⟩
    obtain ⟨f, hf⟩ := exists_rank_eq hm
    have hx := fun x : Source => x.configured_of_settingsInRange hset hk hf
    by_cases hge : 7 < i.val
    · refine ⟨s1.withSource i ((s1.wsu.sources[i]'i.2).stored a k f), ?_, rfl, fun j hj => ?_, ?_, fun _ => rfl,
        fun _ _ => rfl, fun p hp => ?_⟩
      · rw [exec_sourceConfig_filter h hi hge (hx _), sourceBytes_after hset hk hf, if_neg (Nat.not_le_of_lt hge)]
      · exact Vector.getElem_set_ne i.isLt j.isLt fun e => hj (Fin.ext e.symm)
      · rw [show (s1.withSource i _).wsu.sources[i] = _ from Vector.getElem_set_self i.isLt]
        exact Source.stored_spec _ hk hf
      · exact absurd (hp ▸ p.isLt) (by omega)
    · obtain ⟨p, rfl⟩ : ∃ p, i = pinSource p := ⟨⟨i.val, by omega⟩, rfl⟩
      have hpol := hpol (hi ▸ Nat.le_of_not_lt hge)
      refine ⟨(s1.withSource (pinSource p) ((s1.wsu.sources[pinSource p]'(pinSource p).2).stored a k f)).withPin p
        ((s1.wsu.pins[p]'p.2).configured (a.polarity == 1) a.debounce.toNat (s1.inputs.wake.getLsbD p.val)),
        ?_, rfl, fun j hj => ?_, ?_, fun hlt => absurd hlt hge, fun q hq => ?_, fun q hq => ?_⟩
      · rw [if_pos (Nat.le_of_not_lt hge)]
        exact (exec_sourceConfig_pin h hi hpol (hx _)).trans (by rw [sourceBytes_after hset hk hf])
      · exact Vector.getElem_set_ne (pinSource p).isLt j.isLt fun e => hj (Fin.ext e.symm)
      · rw [show (State.withPin (State.withSource s1 (pinSource p) _) p _).wsu.sources[pinSource p] = _ from
          Vector.getElem_set_self (pinSource p).isLt]
        exact Source.stored_spec _ hk hf
      · exact Vector.getElem_set_ne p.isLt q.isLt fun e => hq e.symm
      · obtain rfl : q = p := Fin.ext hq
        rw [show (State.withPin (State.withSource s1 (pinSource q) _) q _).wsu.pins[q] = _ from
          Vector.getElem_set_self q.isLt]
        exact ⟨fun hsame => Pin.configured_same hsame _ _, fun hne => Pin.configured_changed hne _ _⟩

end Sys2Proof.Machine

/-! ### Creation by the TPE and by the EVU (R145 to R150, R197) -/

namespace Sys2Proof.Machine

variable {s : State} {t u : Htm} {i : Fin 48} {v g h : Hold} {e : Bool} {source index : Fin 16} {f : Template}
  {code : Fin 166} {d : Nat}

/-! #### Room on the table (R148) -/

theorem Htm.makeRoom_of_free (hi : (t.slots[i]'i.2).hold = none)
    (hlow : ∀ j : Fin 48, j < i → (t.slots[j]'j.2).hold ≠ none) : t.makeRoom = some (t, i, false) := by
  unfold Htm.makeRoom
  rw [Htm.firstFree_eq_some.mpr ⟨hi, hlow⟩]

theorem Htm.makeRoom_of_none_suspended
    (hall : ∀ i : Fin 48, ∃ h, (t.slots[i]'i.2).hold = some h ∧ h.state ≠ .suspended) : t.makeRoom = none := by
  have hfull : t.firstFree = none := Htm.firstFree_eq_none.mpr fun i => by
    obtain ⟨h, hi, -⟩ := hall i
    exact hi ▸ Option.some_ne_none h
  have hvictim : t.victim = none := by
    have hspec := t.victim_spec
    cases hv : t.victim with
    | none => rfl
    | some b =>
      rw [hv] at hspec
      obtain ⟨-, v, hb, hsus, -⟩ := hspec
      obtain ⟨h, hb', hne⟩ := hall b
      exact absurd hsus (Option.some.inj (hb'.symm.trans hb) ▸ hne)
  unfold Htm.makeRoom
  rw [hfull, hvictim]

/-- A slot whose hold gives way before every other SUSPENDED hold: the lowest class, and of that class the highest
slot. -/
def Htm.givesWay (t : Htm) (i : Fin 48) (v : Hold) : Prop :=
  ∀ j : Fin 48, ∀ g, (t.slots[j]'j.2).hold = some g → g.state = .suspended → v.cls < g.cls ∨ (v.cls = g.cls ∧ j ≤ i)

theorem Htm.victim_eq_some (hi : (t.slots[i]'i.2).hold = some v) (hs : v.state = .suspended) (hmin : t.givesWay i v) :
    t.victim = some i := by
  have hspec := t.victim_spec
  cases hv : t.victim with
  | none =>
    rw [hv] at hspec
    exact absurd hs (hspec i (mem_allSlots i) v hi)
  | some b =>
    rw [hv] at hspec
    obtain ⟨-, w, hb, hw, hleast⟩ := hspec
    have hib := hleast i (mem_allSlots i) v hi hs
    have hbi := hmin b w hb hw
    exact congrArg some (by omega)

theorem Htm.makeRoom_of_victim (hfull : ∀ j : Fin 48, (t.slots[j]'j.2).hold ≠ none)
    (hi : (t.slots[i]'i.2).hold = some v) (hs : v.state = .suspended) (hmin : t.givesWay i v) :
    t.makeRoom = some (t.retire i, i, true) := by
  unfold Htm.makeRoom
  rw [Htm.firstFree_eq_none.mpr hfull, Htm.victim_eq_some hi hs hmin]

/-! #### The hold that is made (R150, R197) -/

theorem State.createEvicting_of_room (hroom : s.htm.makeRoom = some (u, i, e)) (h : Hold) :
    s.createEvicting h = some (s.settleTable
      (u.putHold i (if s.admits none h.cls h.mask h.code then h.begun.activated else h.begun.suspendedFor .notAdmitted))
      (if s.admits none h.cls h.mask h.code then [h.mask] else [])
      ((if e then [.holdEvicted] else []) ++ if s.admits none h.cls h.mask h.code then [] else [.holdSuspended])) := by
  unfold State.createEvicting State.createdHold creationFlags
  rw [hroom]
  cases s.admits none h.cls h.mask h.code <;> rfl

theorem State.createEvicting_of_no_room (hroom : s.htm.makeRoom = none) (h : Hold) : s.createEvicting h = none := by
  unfold State.createEvicting
  rw [hroom]

/-! #### An application (R145 to R150) -/

theorem coalesces_iff : (h.owner = sourceOwner source && h.template == some index) = true ↔
    h.owner.val = 48 + source.val ∧ h.template = some index := by
  rw [Bool.and_eq_true, decide_eq_true_eq, beq_iff_eq, Fin.ext_iff]
  rfl

theorem Htm.coalesceSlot_eq_some (hi : (t.slots[i]'i.2).hold = some h)
    (hsame : h.owner.val = 48 + source.val ∧ h.template = some index)
    (hlow : ∀ j : Fin 48, j < i → ∀ g, (t.slots[j]'j.2).hold = some g →
      ¬ (g.owner.val = 48 + source.val ∧ g.template = some index)) : t.coalesceSlot source index = some i :=
  Htm.firstWhere_eq_some.mpr ⟨⟨h, hi, coalesces_iff.mpr hsame⟩,
    fun j hj g hg => Bool.eq_false_iff.mpr fun hp => hlow j hj g hg (coalesces_iff.mp hp)⟩

theorem Htm.coalesceSlot_eq_none (hnone : ∀ i : Fin 48, ∀ h, (t.slots[i]'i.2).hold = some h →
    ¬ (h.owner.val = 48 + source.val ∧ h.template = some index)) : t.coalesceSlot source index = none :=
  Htm.firstWhere_eq_none.mpr fun i h hi => Bool.eq_false_iff.mpr fun hp => hnone i h hi (coalesces_iff.mp hp)

theorem Htm.ownerLimit_sourceOwner (t : Htm) (source : Fin 16) : t.ownerLimit (sourceOwner source) = t.srcLimit := by
  have hval : (sourceOwner source).val = 48 + source.val := rfl
  unfold Htm.ownerLimit
  rw [if_neg (by omega), if_neg (by omega), if_neg (by omega)]

theorem Htm.ownerCount_sourceOwner (t : Htm) (source : Fin 16) : t.ownerCount (sourceOwner source) =
    ((List.finRange 48).filter fun i =>
      ((t.slots[i]'i.2).hold.map fun h => decide (h.owner.val = 48 + source.val)).getD false).length := by
  unfold Htm.ownerCount Htm.countWhere
  rw [List.countP_eq_length_filter]
  refine congrArg List.length (List.filter_congr fun i _ => ?_)
  cases (t.slots[i]'i.2).hold with
  | none => rfl
  | some h => exact decide_eq_decide.mpr Fin.ext_iff

theorem State.apply_coalesced (hco : f.coalesce = true) (hslot : s.htm.coalesceSlot source index = some i)
    (hi : (s.htm.slots[i]'i.2).hold = some h) :
    s.apply source index f = (s.withHtm (s.htm.putHold i (h.renewed f.code)), .coalesced) := by
  unfold State.apply Htm.coalesce
  rw [if_pos hco, hslot]
  simp only [hi]

theorem State.apply_new (hnone : f.coalesce = false ∨ s.htm.coalesceSlot source index = none) :
    s.apply source index f = s.applyNew source index f := by
  unfold State.apply
  cases hco : f.coalesce with
  | false => rfl
  | true => rw [if_pos rfl, hnone.resolve_left (by simp [hco])]

theorem State.applyNew_limited (hlim : s.htm.srcLimit ≤ s.htm.ownerCount (sourceOwner source)) :
    s.applyNew source index f = (s, .limit) := by
  unfold State.applyNew
  rw [Htm.ownerLimit_sourceOwner, if_pos hlim]

theorem State.applyNew_full (hlim : s.htm.ownerCount (sourceOwner source) < s.htm.srcLimit)
    (hroom : s.htm.makeRoom = none) : s.applyNew source index f = (s, .full) := by
  unfold State.applyNew
  rw [Htm.ownerLimit_sourceOwner, if_neg hlim.not_ge, State.createEvicting_of_no_room hroom]

theorem State.applyNew_created {x : State} (hlim : s.htm.ownerCount (sourceOwner source) < s.htm.srcLimit)
    (hx : s.createEvicting (templateHold source index f) = some x) :
    s.applyNew source index f = (x, .accepted) := by
  unfold State.applyNew
  rw [Htm.ownerLimit_sourceOwner, if_neg hlim.not_ge, hx]

theorem exec_application {x : State × WakeOutcome} (hheld : s.held = false)
    (hx : (s.take (.application source index f)).apply source index f = x) :
    exec (.application source index f) s = .next (x.1.hand (.tpeReturn source x.2)) :=
  exec_arrive (Eq.refl (execApplication source index f s)) hheld (by dsimp only; rw [hx])

/-- Settles O48. -/
theorem applicationsCoalesceOrCreate : Obligations.ApplicationsCoalesceOrCreate := by
  intro source index f s hheld c s1 same count made hold entered refusal
  refine ⟨fun i h hco hi hsame hlow => ?_, fun hnew => ?_⟩
  · exact exec_application hheld (State.apply_coalesced hco (Htm.coalesceSlot_eq_some hi hsame hlow) hi)
  · have hnew : s1.apply source index f = s1.applyNew source index f :=
      State.apply_new (hnew.imp id Htm.coalesceSlot_eq_none)
    have hcount : s1.htm.ownerCount (sourceOwner source) = count := Htm.ownerCount_sourceOwner s.htm source
    have hcreated : ∀ {u i e}, count < s.htm.srcLimit → s.htm.makeRoom = some (u, i, e) →
        exec c s = .next ((s1.settleTable (u.putHold i hold) entered
          ((if e then [.holdEvicted] else []) ++ refusal)).hand (.tpeReturn source .accepted)) := by
      intro u i e hlim hroom
      exact exec_application hheld (hnew.trans (State.applyNew_created (hcount ▸ hlim)
        (State.createEvicting_of_room (s := s1) hroom (templateHold source index f))))
    refine ⟨fun hlim => ?_, fun hlim => ⟨fun i hi hlow => ?_, fun hall => ?_, fun i v hfull hi hs hmin => ?_⟩⟩
    · exact exec_application hheld (hnew.trans (State.applyNew_limited (hcount ▸ hlim)))
    · exact hcreated hlim (Htm.makeRoom_of_free hi hlow)
    · exact exec_application hheld (hnew.trans
        (State.applyNew_full (hcount ▸ hlim) (Htm.makeRoom_of_none_suspended hall)))
    · exact hcreated hlim (Htm.makeRoom_of_victim hfull hi hs hmin)

/-! #### The owner-47 request (R197) -/

theorem isLonger_of_code_zero (h0 : h.code.val = 0) : isLonger code h = false := by
  unfold isLonger
  cases duration code <;> simp [h0]

theorem isLonger_iff (h0 : h.code.val ≠ 0) {r : Nat} (hr : h.remaining = some r) :
    isLonger code h = true ↔ duration code = none ∨ ∃ d, duration code = some d ∧ r < d := by
  unfold isLonger
  cases duration code <;> simp [h0, hr]

theorem isLonger_of_le {r : Nat} (hr : h.remaining = some r) (hd : duration code = some d) (hle : d ≤ r) :
    isLonger code h = false := by
  unfold isLonger
  simp [hd, hr, hle]

theorem Htm.renewHost_longer (hi : (t.slots[i]'i.2).hold = some h) (hl : isLonger code h = true) :
    t.renewHost i code = t.putHold i (h.renewed code) := by
  unfold Htm.renewHost
  simp only [hi, hl, if_true]

theorem Htm.renewHost_kept (hi : (t.slots[i]'i.2).hold = some h) (hl : isLonger code h = false) :
    t.renewHost i code = t := by
  unfold Htm.renewHost
  simp only [hi, hl, Bool.false_eq_true, if_false]

theorem exec_owner47Request_standing (hheld : s.held = false)
    (hfirst : s.htm.firstWhere (fun h => h.owner = 47) = some i) (ht : s.htm.renewHost i code = t) :
    exec (.owner47Request code) s = .next ((s.take (.owner47Request code)).withHtm t) := by
  refine exec_arrive (Eq.refl (execOwner47Request code s)) hheld ?_
  rw [State.take_htm, hfirst]
  exact congrArg (State.withHtm _) ht

theorem exec_owner47Request_full (hheld : s.held = false)
    (hfirst : s.htm.firstWhere (fun h => h.owner = 47) = none) (hroom : s.htm.makeRoom = none) :
    exec (.owner47Request code) s = .next (s.take (.owner47Request code)) := by
  refine exec_arrive (Eq.refl (execOwner47Request code s)) hheld ?_
  rw [State.take_htm, hfirst, State.createEvicting_of_no_room (s := s.take _) hroom]

theorem exec_owner47Request_created {x : State} (hheld : s.held = false)
    (hfirst : s.htm.firstWhere (fun h => h.owner = 47) = none)
    (hx : (s.take (.owner47Request code)).createEvicting (hostHold code) = some x) :
    exec (.owner47Request code) s = .next x := by
  refine exec_arrive (Eq.refl (execOwner47Request code s)) hheld ?_
  rw [State.take_htm, hfirst, hx]

/-- Settles O49. -/
theorem theHostHoldIsRenewedOrCreated : Obligations.TheHostHoldIsRenewedOrCreated := by
  intro code s hheld c s1 made hold entered refusal
  refine ⟨fun i h hi howner hlow => ?_, fun hnone => ?_⟩
  · have hfirst : s.htm.firstWhere (fun h => h.owner = 47) = some i :=
      Htm.firstWhere_eq_some.mpr ⟨⟨h, hi, decide_eq_true howner⟩, fun j hj g hg => decide_eq_false (hlow j hj g hg)⟩
    have hkept : isLonger code h = false → exec c s = .next s1 := fun hl =>
      exec_owner47Request_standing hheld hfirst (Htm.renewHost_kept hi hl)
    refine ⟨fun h0 => hkept (isLonger_of_code_zero h0), fun h0 r hr => ⟨fun hlong => ?_, fun hshort => ?_⟩⟩
    · exact exec_owner47Request_standing hheld hfirst
        (Htm.renewHost_longer hi ((isLonger_iff h0 hr).mpr (hlong.imp_left duration_zero)))
    · obtain ⟨d, hd, hle⟩ := hshort
      exact hkept (isLonger_of_le hr hd hle)
  · have hfirst : s.htm.firstWhere (fun h => h.owner = 47) = none :=
      Htm.firstWhere_eq_none.mpr fun i h hi => decide_eq_false (hnone i h hi)
    have hcreated : ∀ {u i e}, s.htm.makeRoom = some (u, i, e) →
        exec c s = .next (s1.settleTable (u.putHold i hold) entered
          ((if e then [.holdEvicted] else []) ++ refusal)) := fun hroom =>
      exec_owner47Request_created hheld hfirst (State.createEvicting_of_room (s := s1) hroom (hostHold code))
    refine ⟨fun i hi hlow => ?_, fun hall => ?_, fun i v hfull hi hs hmin => ?_⟩
    · exact hcreated (Htm.makeRoom_of_free hi hlow)
    · exact exec_owner47Request_full hheld hfirst (Htm.makeRoom_of_none_suspended hall)
    · exact hcreated (Htm.makeRoom_of_victim hfull hi hs hmin)

end Sys2Proof.Machine

/-! ### The hold second (R108 to R114) -/

namespace Sys2Proof.Machine

variable {s : State} {t : Htm} {i : Fin 48} {h : Hold} {m x : Nat} {sl : Slot} {own : Option (Fin 48)}

/-! #### One hold counted (R109) -/

theorem countHold_scheduled (hs : h.state = .scheduled) :
    countHold h = { h with countdown := h.countdown.map (· - 1) } := by
  unfold countHold
  rw [hs]

theorem countHold_endless (hs : h.state ≠ .scheduled) (h0 : h.code.val = 0) : countHold h = h := by
  unfold countHold
  cases hstate : h.state with
  | scheduled => exact absurd hstate hs
  | active | suspended => exact if_pos h0

theorem countHold_running (hs : h.state ≠ .scheduled) (h0 : h.code.val ≠ 0) :
    countHold h = { h with
      remaining := h.remaining.map (· - 1), sinceStart := h.sinceStart.map fun x => min (x + 1) 4294967295 } := by
  unfold countHold
  cases hstate : h.state with
  | scheduled => exact absurd hstate hs
  | active | suspended => exact (if_neg h0).trans rfl

theorem map_pred_eq_zero {o : Option Nat} : o.map (· - 1) = some 0 ↔ o = some 0 ∨ o = some 1 := by
  cases o with
  | none => simp
  | some n => simp only [Option.map_some, Option.some.injEq]; omega

theorem isExpired_countHold_iff : isExpired (countHold h) = true ↔
    h.state ≠ .scheduled ∧ (h.remaining = some 0 ∨ (h.code.val ≠ 0 ∧ h.remaining = some 1)) := by
  unfold isExpired
  rw [Bool.and_eq_true, bne_iff_ne, beq_iff_eq, countHold_state]
  refine and_congr_right fun hs => ?_
  by_cases h0 : h.code.val = 0
  · rw [countHold_endless hs h0]
    simp only [h0, ne_eq, not_true, false_and, or_false]
  · rw [countHold_running hs h0]
    simp only [map_pred_eq_zero, h0, ne_eq, not_false_eq_true, true_and]

theorem isDue_countHold_iff : isDue (countHold h) = true ↔
    h.state = .scheduled ∧ (h.countdown = some 0 ∨ h.countdown = some 1) := by
  unfold isDue
  rw [Bool.and_eq_true, beq_iff_eq, beq_iff_eq, countHold_state]
  refine and_congr_right fun hs => ?_
  rw [countHold_scheduled hs]
  exact map_pred_eq_zero

theorem not_isDue_countHold (hs : h.state ≠ .scheduled) : isDue (countHold h) = false :=
  Bool.eq_false_iff.mpr fun hd => hs (isDue_countHold_iff.mp hd).1

theorem not_isExpired_countHold (h1 : h.state = .scheduled ∨ h.remaining = none ∨ ∃ m, h.remaining = some (m + 2)) :
    isExpired (countHold h) = false := by
  refine Bool.eq_false_iff.mpr fun he => ?_
  obtain ⟨hs, hr⟩ := isExpired_countHold_iff.mp he
  rcases h1 with hsch | hnone | ⟨m, hm⟩
  · exact hs hsch
  · simp [hnone] at hr
  · simp [hm] at hr

theorem not_isDue_of_countdown (hm : h.countdown = some (m + 2)) : isDue (countHold h) = false := by
  refine Bool.eq_false_iff.mpr fun hd => ?_
  obtain ⟨-, hc⟩ := isDue_countHold_iff.mp hd
  simp [hm] at hc

/-! #### Expiry and start of a counted hold (R110 to R113) -/

theorem countHold_waiting (hs : h.state ≠ .scheduled) (h0 : h.code.val ≠ 0) (m : Nat) :
    (countHold h).waiting (gridCountdown m ((countHold h).sinceStart.getD 0)) = { h with
      state := .scheduled, remaining := none, sinceStart := none, reason := none
      countdown := some (m * 60 - ((h.sinceStart.map fun x => min (x + 1) 4294967295).getD 0) % (m * 60)) } := by
  rw [countHold_running hs h0]
  rfl

theorem one_le_gridCountdown (hm : 1 ≤ m) : 1 ≤ gridCountdown m x :=
  Nat.sub_pos_of_lt (Nat.mod_lt _ (by omega))

theorem not_isDue_waiting (hm : 1 ≤ m) : isDue (h.waiting (gridCountdown m x)) = false := by
  have h1 := one_le_gridCountdown (x := x) hm
  refine Bool.eq_false_iff.mpr fun hd => ?_
  simp only [isDue, Hold.waiting, Bool.and_eq_true, beq_iff_eq, Option.some.injEq] at hd
  omega

theorem State.startHold_countHold (s : State) (i : Fin 48) (hs : h.state = .scheduled) :
    s.startHold i (countHold h) = if s.admits (some i) h.cls h.mask h.code then ({ h.begun with charge := 0 } : Hold).activated
      else ({ h.begun with charge := 0 } : Hold).suspendedFor .notAdmitted := by
  rw [countHold_scheduled hs]
  rfl

/-! #### HOLD_EXPIRY, REPEAT_EXPIRY and APPOINTMENT_START as rows of their own (log 8) -/

theorem exec_holdExpiry (hheld : s.held = false) (hi : (s.htm.slots[i]'i.2).hold = some h) :
    exec (.holdExpiry i) s = .next (if isExpired (countHold h) && h.interval.isNone then
      (s.take (.holdExpiry i)).settleTable (s.htm.expire i (countHold h)) [] [.holdExpired]
      else s.take (.holdExpiry i)) := by
  refine exec_arrive (Eq.refl (execHoldExpiry i s)) hheld ?_
  simp only [State.take_htm, hi, Option.map_some, (sameFields_countHold h).interval]

theorem exec_repeatExpiry (hheld : s.held = false) (hi : (s.htm.slots[i]'i.2).hold = some h) :
    exec (.repeatExpiry i) s = .next (if isExpired (countHold h) && h.interval.isSome then
      (s.take (.repeatExpiry i)).settleTable (s.htm.expire i (countHold h)) [] [.holdExpired]
      else s.take (.repeatExpiry i)) := by
  refine exec_arrive (Eq.refl (execRepeatExpiry i s)) hheld ?_
  simp only [State.take_htm, hi, Option.map_some, (sameFields_countHold h).interval]

theorem exec_appointmentStart_due (hheld : s.held = false) (hi : (s.htm.slots[i]'i.2).hold = some h)
    (hd : isDue (countHold h) = true) :
    exec (.appointmentStart i) s = .next ((s.take (.appointmentStart i)).settleTable
      (s.htm.putHold i (s.startHold i (countHold h)))
      (if (s.startHold i (countHold h)).state = .active then [(s.startHold i (countHold h)).mask] else [])
      (secondFlags false ((s.startHold i (countHold h)).state = .suspended))) := by
  refine exec_arrive (Eq.refl (execAppointmentStart i s)) hheld ?_
  simp only [State.take_htm, hi, Option.map_some, hd]
  rfl

theorem exec_appointmentStart_quiet (hheld : s.held = false) (hi : (s.htm.slots[i]'i.2).hold = some h)
    (hd : isDue (countHold h) = false) :
    exec (.appointmentStart i) s = .next (s.take (.appointmentStart i)) := by
  refine exec_arrive (Eq.refl (execAppointmentStart i s)) hheld ?_
  simp only [State.take_htm, hi, Option.map_some, hd, Bool.false_eq_true, if_false]

theorem exec_singleRows_free (hheld : s.held = false) (hi : (s.htm.slots[i]'i.2).hold = none) :
    exec (.holdExpiry i) s = .next (s.take (.holdExpiry i))
      ∧ exec (.repeatExpiry i) s = .next (s.take (.repeatExpiry i))
      ∧ exec (.appointmentStart i) s = .next (s.take (.appointmentStart i)) := by
  refine ⟨exec_arrive (Eq.refl (execHoldExpiry i s)) hheld ?_, exec_arrive (Eq.refl (execRepeatExpiry i s)) hheld ?_,
    exec_arrive (Eq.refl (execAppointmentStart i s)) hheld ?_⟩
  all_goals simp only [State.take_htm, hi, Option.map_none]

theorem exec_holdExpiry_quiet (hheld : s.held = false) (hi : (s.htm.slots[i]'i.2).hold = some h)
    (hq : isExpired (countHold h) = false ∨ h.interval ≠ none) :
    exec (.holdExpiry i) s = .next (s.take (.holdExpiry i)) := by
  rw [exec_holdExpiry hheld hi, if_neg]
  rw [Bool.and_eq_true, Option.isNone_iff_eq_none]
  rintro ⟨he, hn⟩
  exact hq.elim (fun h1 => absurd he (Bool.eq_false_iff.mp h1)) (absurd hn)

theorem exec_repeatExpiry_quiet (hheld : s.held = false) (hi : (s.htm.slots[i]'i.2).hold = some h)
    (hq : isExpired (countHold h) = false ∨ h.interval = none) :
    exec (.repeatExpiry i) s = .next (s.take (.repeatExpiry i)) := by
  rw [exec_repeatExpiry hheld hi, if_neg]
  rw [Bool.and_eq_true, Option.isSome_iff_ne_none]
  rintro ⟨he, hn⟩
  exact hq.elim (fun h1 => absurd he (Bool.eq_false_iff.mp h1)) (absurd · hn)

theorem exec_holdExpiry_retires (hheld : s.held = false) (hi : (s.htm.slots[i]'i.2).hold = some h)
    (he : isExpired (countHold h) = true) (hn : h.interval = none) :
    exec (.holdExpiry i) s =
      .next ((s.take (.holdExpiry i)).settleTable (s.htm.retire i) [] [.holdExpired]) := by
  have hn' : (countHold h).interval = none := (sameFields_countHold h).interval.trans hn
  rw [exec_holdExpiry hheld hi, he, hn, Htm.expire, hn']
  rfl

theorem exec_repeatExpiry_returns (hheld : s.held = false) (hi : (s.htm.slots[i]'i.2).hold = some h)
    (he : isExpired (countHold h) = true) (hm : h.interval = some m) :
    exec (.repeatExpiry i) s = .next ((s.take (.repeatExpiry i)).settleTable
      (s.htm.putHold i ((countHold h).waiting (gridCountdown m ((countHold h).sinceStart.getD 0)))) []
      [.holdExpired]) := by
  have hm' : (countHold h).interval = some m := (sameFields_countHold h).interval.trans hm
  rw [exec_repeatExpiry hheld hi, he, hm, Htm.expire, hm']
  rfl

end Sys2Proof.Machine

namespace Sys2Proof.Machine

variable {s : State} {i : Fin 48} {h g : Hold} {m : Nat} {sl : Slot} {b : Bool}

/-! #### A slot counted and freed of an expired hold (R109 to R111) -/

/-- A slot as the starts of a hold second find it. -/
def secondSlot (sl : Slot) : Slot := expiredSlot { sl with hold := sl.hold.map countHold }

/-- The table as the starts of a hold second find it. -/
def Htm.secondTable (t : Htm) : Htm := (t.mapHolds countHold).afterExpiries

theorem Htm.secondTable_eq (t : Htm) : t.secondTable = (t.mapHolds countHold).afterExpiries := rfl

theorem Htm.secondTable_slots (t : Htm) (i : Fin 48) : t.secondTable.slots[i] = secondSlot (t.slots[i]'i.2) := by
  rw [Htm.secondTable_eq, Htm.afterExpiries_slots, Htm.mapHolds_slot, secondSlot]

theorem secondSlot_free (hi : sl.hold = none) : secondSlot sl = sl := by
  unfold secondSlot expiredSlot
  simp only [hi, Option.map_none]
  exact congrArg (Slot.mk sl.gen) hi.symm

theorem secondSlot_counted (hi : sl.hold = some h) (he : isExpired (countHold h) = false) :
    secondSlot sl = { sl with hold := some (countHold h) } := by
  unfold secondSlot expiredSlot
  simp only [hi, Option.map_some, he, Bool.false_eq_true, if_false]

theorem secondSlot_retired (hi : sl.hold = some h) (he : isExpired (countHold h) = true) (hn : h.interval = none) :
    secondSlot sl = { gen := sl.gen + 1, hold := none } := by
  unfold secondSlot expiredSlot
  simp only [hi, Option.map_some, he, if_true, (sameFields_countHold h).interval, hn]

theorem secondSlot_returned (hi : sl.hold = some h) (he : isExpired (countHold h) = true) (hm : h.interval = some m) :
    secondSlot sl = { sl with
      hold := some ((countHold h).waiting (gridCountdown m ((countHold h).sinceStart.getD 0))) } := by
  unfold secondSlot expiredSlot
  simp only [hi, Option.map_some, he, if_true, (sameFields_countHold h).interval, hm]

/-- No hold becomes ACTIVE by counting and expiry; an ACTIVE one that expires covers nothing more. -/
theorem secondSlot_activeMask (hi : sl.hold = some h) (he : isExpired (countHold h) = b) :
    (secondSlot sl).activeMask = if b then 0 else sl.activeMask := by
  cases b with
  | true =>
    cases hint : h.interval with
    | none => rw [secondSlot_retired hi he hint]; rfl
    | some m => rw [secondSlot_returned hi he hint]; rfl
  | false =>
    rw [secondSlot_counted hi he]
    simp only [Slot.activeMask, hi, countHold_state, (sameFields_countHold h).mask, Bool.false_eq_true, if_false]

theorem secondSlot_activeMask_of_active (hi : sl.hold = some g) (hact : g.state = .active)
    (hne : g.remaining ≠ some 0) :
    (secondSlot sl).activeMask = if g.code.val ≠ 0 ∧ g.remaining = some 1 then 0 else g.mask := by
  have hexp : isExpired (countHold g) = true ↔ g.code.val ≠ 0 ∧ g.remaining = some 1 := by
    rw [isExpired_countHold_iff, hact, or_iff_right hne]
    exact and_iff_right (by decide)
  have hmask : sl.activeMask = g.mask := by
    simp only [Slot.activeMask, hi, hact, if_true]
  simp only [secondSlot_activeMask hi rfl, hmask, hexp]

theorem secondSlot_activeMask_eq_zero (h0 : sl.activeMask = 0) : (secondSlot sl).activeMask = 0 := by
  cases hi : sl.hold with
  | none => rw [secondSlot_free hi, h0]
  | some h => rw [secondSlot_activeMask hi rfl, h0, ite_self]

/-! #### The starts (R112, R113) -/

def Slot.isDue (sl : Slot) : Bool := sl.hold.any Machine.isDue

def Slot.isActive (sl : Slot) : Bool := sl.hold.any fun h => decide (h.state = .active)

theorem Slot.isDue_free (hi : sl.hold = none) : sl.isDue = false := by
  unfold Slot.isDue
  rw [hi]
  rfl

theorem Slot.isDue_hold (hi : sl.hold = some h) : sl.isDue = Machine.isDue h := by
  unfold Slot.isDue
  rw [hi]
  rfl

theorem startedSlot_of_not_due (hd : sl.isDue = false) : startedSlot s i sl = sl := by
  unfold startedSlot
  cases hi : sl.hold with
  | none => rfl
  | some h => exact if_neg (Bool.eq_false_iff.mp (Slot.isDue_hold hi ▸ hd))

theorem startedSlot_of_due (hi : sl.hold = some h) (hd : isDue h = true) :
    startedSlot s i sl = { sl with hold := some (s.startHold i h) } := by
  unfold startedSlot
  simp only [hi, hd, if_true]

/-- What the starts at these slots gather, by the table before and after them: the masks of the holds that started
ACTIVE, in slot order, and whether a start failed (R112 to R114). -/
def startsBetween (before after : Htm) (seen : List (Fin 48)) : List DomainSet × Bool :=
  ((seen.filter fun i => (before.slots[i]'i.2).isDue && (after.slots[i]'i.2).isActive).map fun i =>
      (after.slots[i]'i.2).activeMask,
    seen.any fun i => (before.slots[i]'i.2).isDue && !(after.slots[i]'i.2).isActive)

theorem startsBetween_congr {before after after' : Htm} {seen : List (Fin 48)}
    (h : ∀ i ∈ seen, after'.slots[i]'i.2 = after.slots[i]'i.2) :
    startsBetween before after' seen = startsBetween before after seen := by
  unfold startsBetween
  refine Prod.ext_iff.mpr ⟨?_, ?_⟩
  · dsimp only
    rw [List.filter_congr fun i hi => by rw [h i hi]]
    exact List.map_congr_left fun i hi => by rw [h i (List.mem_of_mem_filter hi)]
  · rw [Bool.eq_iff_iff, List.any_eq_true, List.any_eq_true]
    exact exists_congr fun i => and_congr_right fun hi => by rw [h i hi]

theorem startsBetween_singleton (before after : Htm) (i : Fin 48) : startsBetween before after [i] =
    (if (before.slots[i]'i.2).isDue && (after.slots[i]'i.2).isActive then [(after.slots[i]'i.2).activeMask] else [],
      (before.slots[i]'i.2).isDue && !(after.slots[i]'i.2).isActive) := by
  unfold startsBetween
  rw [List.filter_singleton, List.any_cons, List.any_nil, Bool.or_false]
  cases (before.slots[i]'i.2).isDue && (after.slots[i]'i.2).isActive <;> rfl

theorem startsBetween_append (before after : Htm) (seen : List (Fin 48)) (i : Fin 48) :
    startsBetween before after (seen ++ [i]) =
      ((startsBetween before after seen).1 ++ (startsBetween before after [i]).1,
        (startsBetween before after seen).2 || (startsBetween before after [i]).2) := by
  unfold startsBetween
  rw [List.filter_append, List.map_append, List.any_append]

/-- One start gathers its mask where the hold starts ACTIVE, and a failure where it does not. -/
theorem startSlot_gathers (acc : Starts) (i : Fin 48) {before : Htm}
    (hi : acc.1.htm.slots[i]'i.2 = before.slots[i]'i.2) :
    (startSlot acc i).2 = (acc.2.1 ++ (startsBetween before (startSlot acc i).1.htm [i]).1,
      acc.2.2 || (startsBetween before (startSlot acc i).1.htm [i]).2) := by
  rw [startsBetween_singleton, startSlot_slot, ← hi]
  unfold startSlot
  cases hslot : (acc.1.htm.slots[i]'i.2).hold with
  | none =>
    rw [Slot.isDue_free hslot]
    simp only [Bool.false_and, Bool.false_eq_true, if_false, List.append_nil, Bool.or_false]
  | some h =>
    dsimp only
    rw [Slot.isDue_hold hslot]
    cases hd : isDue h with
    | false => simp only [Bool.false_and, Bool.false_eq_true, if_false, List.append_nil, Bool.or_false]
    | true =>
      rw [startedSlot_of_due hslot hd, if_pos rfl, Starts.add]
      rcases startHold_cases acc.1 i h with ⟨e, -⟩ | e
      all_goals rw [e]; rfl

theorem State.afterStarts_gathered (s : State) :
    s.afterStarts.2 = startsBetween s.htm s.afterStarts.1.htm allSlots := by
  rw [State.afterStarts_eq]
  refine (foldl_allSlots (f := startSlot) (a := (s, [], false))
    (P := fun seen acc => (∀ j : Fin 48, j ∉ seen → acc.1.htm.slots[j]'j.2 = s.htm.slots[j]'j.2)
      ∧ acc.2 = startsBetween s.htm acc.1.htm seen) ⟨fun _ _ => rfl, rfl⟩ ?_).2
  rintro seen acc i hseen ⟨hrest, hgathered⟩
  have hi : i ∉ seen := fun hm => lt_irrefl i ((hseen i).mp hm)
  refine ⟨fun j hj => ?_, ?_⟩
  · rw [List.mem_append, not_or, List.mem_singleton] at hj
    rw [startSlot_other acc hj.2, hrest j hj.1]
  · have hkept : startsBetween s.htm (startSlot acc i).1.htm seen = startsBetween s.htm acc.1.htm seen :=
      startsBetween_congr fun j hj => startSlot_other acc fun e => hi (e ▸ hj)
    rw [startSlot_gathers acc i (hrest i hi), startsBetween_append, hkept, ← hgathered]

/-! #### The table at the end of a hold second -/

/-- What a hold second leads to: the table, the masks of the holds started ACTIVE, and whether a start failed. -/
def State.secondEnd (s : State) : Starts := (s.withHtm s.htm.secondTable).afterStarts

theorem State.secondEnd_eq (s : State) : s.secondEnd = (s.withHtm s.htm.secondTable).afterStarts := rfl

theorem exec_holdSecond (hheld : s.held = false) :
    exec .holdSecond s = .next ((s.take .holdSecond).settleTable (s.take .holdSecond).secondEnd.1.htm
      (s.take .holdSecond).secondEnd.2.1
      (secondFlags (s.htm.mapHolds countHold).someExpired (s.take .holdSecond).secondEnd.2.2)) := by
  refine exec_arrive ((Eq.refl (execHoldSecond s)).trans (execHoldSecond_eq s)) hheld ?_
  dsimp only
  rw [State.secondEnd_eq, Htm.secondTable_eq, State.take_htm]

theorem sameLimits_secondEnd (s : State) : SameLimits s.htm s.secondEnd.1.htm := by
  rw [State.secondEnd_eq]
  refine SameLimits.trans ?_ (sameLimits_afterStarts _)
  rw [State.withHtm_htm, Htm.secondTable_eq]
  exact SameLimits.trans (sameLimits_mapHolds _ _) (sameLimits_afterExpiries _)

/-- At its turn a slot is started from what counting and expiry have left in it, with the lower starts taken. -/
theorem State.secondEnd_turn (s : State) (i : Fin 48) :
    ∃ x : Htm, (∀ j : Fin 48, j < i → x.slots[j]'j.2 = s.secondEnd.1.htm.slots[j])
      ∧ (∀ j : Fin 48, i < j → x.slots[j]'j.2 = secondSlot (s.htm.slots[j]'j.2))
      ∧ s.secondEnd.1.htm.slots[i] = startedSlot (s.withHtm x) i (secondSlot (s.htm.slots[i]'i.2)) := by
  obtain ⟨x, hlow, hhigh, hown⟩ := (s.withHtm s.htm.secondTable).afterStarts_turn i
  rw [← State.secondEnd_eq] at hlow hown
  rw [State.withHtm_htm] at hhigh hown
  have hslots := s.htm.secondTable_slots
  generalize s.htm.secondTable = u at hhigh hown hslots
  exact ⟨x, hlow, fun j hj => (hhigh j hj.le).trans (hslots j), hown.trans (hslots i ▸ rfl)⟩

theorem State.secondEnd_slot (s : State) (hd : (secondSlot (s.htm.slots[i]'i.2)).isDue = false) :
    s.secondEnd.1.htm.slots[i] = secondSlot (s.htm.slots[i]'i.2) := by
  obtain ⟨x, -, -, hown⟩ := s.secondEnd_turn i
  rw [hown, startedSlot_of_not_due hd]

theorem State.secondEnd_free (s : State) (hi : (s.htm.slots[i]'i.2).hold = none) :
    s.secondEnd.1.htm.slots[i] = s.htm.slots[i]'i.2 := by
  have hslot := secondSlot_free hi
  rw [s.secondEnd_slot (hslot.symm ▸ Slot.isDue_free hi), hslot]

theorem State.secondEnd_counted (s : State) (hi : (s.htm.slots[i]'i.2).hold = some h)
    (he : isExpired (countHold h) = false) (hd : isDue (countHold h) = false) :
    s.secondEnd.1.htm.slots[i] = { s.htm.slots[i]'i.2 with hold := some (countHold h) } := by
  have hslot := secondSlot_counted hi he
  rw [s.secondEnd_slot (hslot.symm ▸ (Slot.isDue_hold rfl).trans hd), hslot]

theorem State.secondEnd_retired (s : State) (hi : (s.htm.slots[i]'i.2).hold = some h)
    (he : isExpired (countHold h) = true) (hn : h.interval = none) :
    s.secondEnd.1.htm.slots[i] = { gen := (s.htm.slots[i]'i.2).gen + 1, hold := none } := by
  have hslot := secondSlot_retired hi he hn
  rw [s.secondEnd_slot (hslot.symm ▸ Slot.isDue_free rfl), hslot]

theorem State.secondEnd_returned (s : State) (hi : (s.htm.slots[i]'i.2).hold = some h)
    (he : isExpired (countHold h) = true) (hm : h.interval = some m) (h1 : 1 ≤ m) :
    s.secondEnd.1.htm.slots[i] = { s.htm.slots[i]'i.2 with
      hold := some ((countHold h).waiting (gridCountdown m ((countHold h).sinceStart.getD 0))) } := by
  have hslot := secondSlot_returned hi he hm
  rw [s.secondEnd_slot (hslot.symm ▸ (Slot.isDue_hold rfl).trans (not_isDue_waiting h1)), hslot]

/-- An appointment that is due is tried at its turn, with the expiries made and the lower starts taken (R112). -/
theorem State.secondEnd_started (s : State) (hi : (s.htm.slots[i]'i.2).hold = some h) (hs : h.state = .scheduled)
    (hc : h.countdown = some 1) :
    ∃ x : Htm, (∀ j : Fin 48, j < i → x.slots[j]'j.2 = s.secondEnd.1.htm.slots[j])
      ∧ (∀ j : Fin 48, i < j → x.slots[j]'j.2 = secondSlot (s.htm.slots[j]'j.2))
      ∧ s.secondEnd.1.htm.slots[i] = { s.htm.slots[i]'i.2 with
          hold := some (if (s.withHtm x).admits (some i) h.cls h.mask h.code
            then ({ h.begun with charge := 0 } : Hold).activated
            else ({ h.begun with charge := 0 } : Hold).suspendedFor .notAdmitted) } := by
  obtain ⟨x, hlow, hhigh, hown⟩ := s.secondEnd_turn i
  refine ⟨x, hlow, hhigh, hown.trans ?_⟩
  rw [secondSlot_counted hi (not_isExpired_countHold (.inl hs)),
    startedSlot_of_due rfl (isDue_countHold_iff.mpr ⟨hs, .inr hc⟩), State.startHold_countHold _ _ hs]

/-! #### The report and the flags on a sound table (R114) -/

theorem timersSound_running (ht : timersSound h) (hne : h.state ≠ .scheduled) :
    (h.code.val = 0 → h.remaining = none) ∧ (h.code.val ≠ 0 → ∃ n, h.remaining = some n ∧ 1 ≤ n) := by
  unfold timersSound at ht
  cases hs : h.state with
  | scheduled => exact absurd hs hne
  | active | suspended =>
    rw [hs] at ht
    obtain ⟨-, hendless, hrunning, -⟩ := ht
    exact ⟨hendless, fun h0 => (hrunning h0).imp fun n hn => ⟨hn.1, hn.2.1⟩⟩

theorem isExpired_countHold_sound (hs : holdSound h) :
    isExpired (countHold h) = decide (h.state ≠ .scheduled ∧ h.remaining = some 1) := by
  have htimers := hs.timers
  rw [Bool.eq_iff_iff, isExpired_countHold_iff, decide_eq_true_iff]
  refine and_congr_right fun hne => ?_
  obtain ⟨hendless, hrunning⟩ := timersSound_running htimers hne
  by_cases h0 : h.code.val = 0
  · simp [hendless h0]
  · obtain ⟨n, hn, h1⟩ := hrunning h0
    rw [hn, Option.some.injEq, Option.some.injEq]
    omega

theorem isDue_countHold_sound (hs : holdSound h) :
    isDue (countHold h) = decide (h.state = .scheduled ∧ h.countdown = some 1) := by
  have htimers := hs.timers
  rw [Bool.eq_iff_iff, isDue_countHold_iff, decide_eq_true_iff]
  refine and_congr_right fun hsch => ?_
  unfold timersSound at htimers
  rw [hsch] at htimers
  obtain ⟨⟨n, hn, h1, -⟩, -⟩ := htimers
  rw [hn, Option.some.injEq, Option.some.injEq]
  omega

theorem secondSlot_isDue (hs : ∀ h, sl.hold = some h → holdSound h) :
    (secondSlot sl).isDue = sl.hold.any fun h => decide (h.state = .scheduled ∧ h.countdown = some 1) := by
  cases hi : sl.hold with
  | none => rw [secondSlot_free hi, Slot.isDue_free hi]; rfl
  | some h =>
    have hsound := hs h hi
    rw [Option.any_some, ← isDue_countHold_sound hsound]
    cases he : isExpired (countHold h) with
    | false => rw [secondSlot_counted hi he]; rfl
    | true =>
      rw [not_isDue_countHold (isExpired_countHold_iff.mp he).1]
      cases hint : h.interval with
      | none => rw [secondSlot_retired hi he hint]; rfl
      | some m =>
        obtain ⟨h1, -⟩ := hsound.interval m hint
        rw [secondSlot_returned hi he hint]
        exact (Slot.isDue_hold rfl).trans (not_isDue_waiting h1)

theorem Htm.someExpired_counted (hs : ∀ i : Fin 48, ∀ h, (s.htm.slots[i]'i.2).hold = some h → holdSound h) :
    (s.htm.mapHolds countHold).someExpired =
    (List.finRange 48).any fun i => (s.htm.slots[i]'i.2).hold.any fun h =>
      decide (h.state ≠ .scheduled ∧ h.remaining = some 1) := by
  unfold Htm.someExpired allSlots
  refine congrArg (List.any (List.finRange 48)) (funext fun i => ?_)
  rw [Htm.mapHolds_slot]
  cases hi : (s.htm.slots[i]'i.2).hold with
  | none => rfl
  | some h => exact isExpired_countHold_sound (hs i h hi)

theorem State.secondEnd_gathered (hs : ∀ i : Fin 48, ∀ h, (s.htm.slots[i]'i.2).hold = some h → holdSound h) :
    let due := fun i : Fin 48 => (s.htm.slots[i]'i.2).hold.any fun h =>
      decide (h.state = .scheduled ∧ h.countdown = some 1)
    let after := fun i : Fin 48 => s.secondEnd.1.htm.slots[i]
    s.secondEnd.2 = (((List.finRange 48).filter fun i => due i && (after i).isActive).map fun i => (after i).activeMask,
      (List.finRange 48).any fun i => due i && !(after i).isActive) := by
  intro due after
  have hdue : ∀ i : Fin 48, (s.htm.secondTable.slots[i]).isDue = due i := fun i => by
    rw [s.htm.secondTable_slots i, secondSlot_isDue (hs i)]
  have hgathered := (s.withHtm s.htm.secondTable).afterStarts_gathered
  rw [← State.secondEnd_eq, State.withHtm_htm] at hgathered
  rw [hgathered]
  simp only [startsBetween, hdue]
  rw [allSlots]

theorem secondFlags_handed (expired failed : Bool) :
    (if secondFlags expired failed = [] then [] else [Instr.flagSetting (flagsOf (secondFlags expired failed))])
      = if ((if expired then 0x0004 else 0 : FlagSet) ||| if failed then 0x0008 else 0) = 0 then []
        else [.flagSetting ((if expired then 0x0004 else 0) ||| if failed then 0x0008 else 0)] := by
  cases expired <;> cases failed <;> rfl

/-- Settles O44. -/
theorem theHoldSecondCountsExpiresAndStarts : Obligations.TheHoldSecondCountsExpiresAndStarts := by
  refine ⟨fun s hheld => ?_, fun s i h hheld hi => ⟨fun hs h0 h1 => ?_, fun hs hc => ?_⟩, ?_⟩
  · have hexec := (exec_holdSecond hheld).trans (congrArg Host.Outcome.next (State.settleTable_eq ..))
    have hlimits := sameLimits_secondEnd (s.take .holdSecond)
    have hgathered := (s.take .holdSecond).secondEnd_gathered
    have hfree := fun i => (s.take .holdSecond).secondEnd_free (i := i)
    have hcounted := fun i h => (s.take .holdSecond).secondEnd_counted (i := i) (h := h)
    have hretired := fun i h => (s.take .holdSecond).secondEnd_retired (i := i) (h := h)
    have hreturned := fun i h m => (s.take .holdSecond).secondEnd_returned (i := i) (h := h) (m := m)
    have hstarted := fun i h => (s.take .holdSecond).secondEnd_started (i := i) (h := h)
    generalize (s.take .holdSecond).secondEnd = r at *
    refine ⟨_, hexec, rfl, hlimits, fun hs => ?_, fun i => ⟨hfree i, ?_⟩⟩
    · intro due expired active started flags
      have hr : r.2 = (started, (List.finRange 48).any fun i => due i && !active i) := hgathered hs.holds
      show (s.take .holdSecond).handed ++ _ ++ _ = _
      rw [secondFlags_handed, Htm.someExpired_counted hs.holds, hr]
      rfl
    intro h hi since
    refine ⟨fun hrun h0 hr => ?_, fun m hrun h0 hr => ?_, fun hrun h0 hr => ⟨fun hn => ?_, fun m hm h1 => ?_⟩,
      fun m hsch hc => ?_, fun hsch hc => ?_⟩
    · have he := not_isExpired_countHold (.inr (.inl hr))
      refine (hcounted i h hi he (not_isDue_countHold hrun)).trans ?_
      rw [countHold_endless hrun h0]
      exact congrArg (Slot.mk _) hi.symm
    · have he := not_isExpired_countHold (.inr (.inr ⟨m, hr⟩))
      refine (hcounted i h hi he (not_isDue_countHold hrun)).trans ?_
      rw [countHold_running hrun h0, hr]
      rfl
    · exact hretired i h hi (isExpired_countHold_iff.mpr ⟨hrun, .inr ⟨h0, hr⟩⟩) hn
    · refine (hreturned i h m hi (isExpired_countHold_iff.mpr ⟨hrun, .inr ⟨h0, hr⟩⟩) hm h1).trans ?_
      rw [countHold_waiting hrun h0]
      rfl
    · refine (hcounted i h hi (not_isExpired_countHold (.inl hsch)) (not_isDue_of_countdown hc)).trans ?_
      rw [countHold_scheduled hsch, hc]
      rfl
    · obtain ⟨x, hlow, hhigh, hown⟩ := hstarted i h hi hsch hc
      refine ⟨x, hlow, fun j hj g hg hact hne => ?_, fun j hj hzero => ?_, fun hadm => ?_, fun hadm => ?_⟩
      · exact (congrArg Slot.activeMask (hhigh j hj)).trans (secondSlot_activeMask_of_active hg hact hne)
      · rw [hhigh j hj]
        exact secondSlot_activeMask_eq_zero hzero
      · exact hown.trans (congrArg (fun g => Slot.mk _ (some g)) (if_pos hadm))
      · exact hown.trans (congrArg (fun g => Slot.mk _ (some g)) (if_neg (Bool.eq_false_iff.mp hadm)))
  · have he : isExpired (countHold h) = true := isExpired_countHold_iff.mpr ⟨hs, .inr ⟨h0, h1⟩⟩
    refine ⟨exec_holdExpiry_retires hheld hi he, fun m hm => ?_⟩
    rw [exec_repeatExpiry_returns hheld hi he hm, countHold_waiting hs h0]
  · have hd : isDue (countHold h) = true := isDue_countHold_iff.mpr ⟨hs, .inr hc⟩
    refine ⟨fun hadm => ?_, fun hadm => ?_⟩
    all_goals
      rw [exec_appointmentStart_due hheld hi hd, State.startHold_countHold s i hs, hadm]
      rfl
  · intro s i hheld quiet
    refine ⟨exec_singleRows_free hheld, fun h hi => ⟨fun hq => ?_, fun hq => ?_, fun hq => ?_, fun hq => ?_⟩⟩
    · have he := not_isExpired_countHold hq
      exact ⟨exec_holdExpiry_quiet hheld hi (.inl he), exec_repeatExpiry_quiet hheld hi (.inl he)⟩
    · exact exec_holdExpiry_quiet hheld hi (.inr hq)
    · exact exec_repeatExpiry_quiet hheld hi (.inr hq)
    · exact exec_appointmentStart_quiet hheld hi (hq.elim not_isDue_countHold fun ⟨_, hm⟩ => not_isDue_of_countdown hm)

end Sys2Proof.Machine
